-- ==== Sys2Proof/Word.lean ====
section
/-! DEFINITION. The widths of the block: the instruction word, a byte, a register index, and text as bytes. -/

namespace Sys2Proof

/-- InstructionWord, "an opaque 32-bit unsigned value" (R10, R60); also a 32-bit address of the host (R40). -/
abbrev Word := BitVec 32

/-- One byte of the code section, of a symbol's name or of the text sink. -/
abbrev Byte := BitVec 8

/-- A register index 0 to 31 (R11): an index, never the contents of a register (R24). -/
abbrev RegIdx := BitVec 5

/-- Text as the bytes that reach the sink (R344, R350); a symbol's name is copied into it unchanged (R343). -/
abbrev Text := List Byte

end Sys2Proof
end

