-- ==== Sys2Proof/Syntax.lean ====
section
/-! DEFINITION. The vocabulary of the decoder: InstructionKind, the operand formats, DecodedOperands, and `Instr`,
one constructor per row of `spec/opcode_table.json`, holding the fields of the word before any extension. -/

namespace Sys2Proof

/-- InstructionKind (R30): the 55 instructions and UNKNOWN, in the order of their codes. -/
inductive Kind where
  | unknown | lui | auipc | jal | jalr | beq | bne | blt | bge | bltu | bgeu | lb | lh | lw | lbu
  | lhu | sb | sh | sw | addi | slti | sltiu | xori | ori | andi | slli | srli | srai | add | sub
  | sll | slt | sltu | xor | srl | sra | or | and | mul | mulh | mulhsu | mulhu | div | divu | rem
  | remu | fence | fencei | ecall | ebreak | csrrw | csrrs | csrrc | csrrwi | csrrsi | csrrci
  deriving DecidableEq, Repr

/-- The operand formats (R31): ten with operands, NONE and UNKNOWN, in the order of their codes. -/
inductive Format where
  | unknown | r | i | s | b | u | j | shift | fence | csr | csri | none
  deriving DecidableEq, Repr

/-- DecodedOperands (R18, R23): the variant record with exactly the fields a format carries. An immediate is the
exact integer the OperandDecoder gives (R16, R74). -/
inductive Operands where
  | r (rd rs1 rs2 : RegIdx)
  | i (rd rs1 : RegIdx) (imm : Int)
  | s (rs1 rs2 : RegIdx) (imm : Int)
  | b (rs1 rs2 : RegIdx) (imm : Int)
  | u (rd : RegIdx) (imm : Int)
  | j (rd : RegIdx) (imm : Int)
  | shift (rd rs1 : RegIdx) (shamt : BitVec 5)
  | fence (pred succ : BitVec 4)
  | csr (rd : RegIdx) (csr : BitVec 12) (rs1 : RegIdx)
  | csri (rd : RegIdx) (csr : BitVec 12) (zimm : BitVec 5)
  | none
  | unknown
  deriving DecidableEq, Repr

/-- A classified word with the fields of its format as they stand in the word: the immediate fields are the
assembled bits before extension (R75 to R80), because the extension depends on `IMM_MODE` and classification does
not (R85). -/
inductive Instr where
  -- upper immediates (R150, R151): `imm` is the 20-bit field `w[31:12]`
  | lui (rd : RegIdx) (imm : BitVec 20)
  | auipc (rd : RegIdx) (imm : BitVec 20)
  -- jumps (R160, R161): `imm` of JAL is `immJ`, 21 bits with bit 0 zero
  | jal (rd : RegIdx) (imm : BitVec 21)
  | jalr (rd rs1 : RegIdx) (imm : BitVec 12)
  -- branches (R162 to R167): `imm` is `immB`, 13 bits with bit 0 zero
  | beq (rs1 rs2 : RegIdx) (imm : BitVec 13)
  | bne (rs1 rs2 : RegIdx) (imm : BitVec 13)
  | blt (rs1 rs2 : RegIdx) (imm : BitVec 13)
  | bge (rs1 rs2 : RegIdx) (imm : BitVec 13)
  | bltu (rs1 rs2 : RegIdx) (imm : BitVec 13)
  | bgeu (rs1 rs2 : RegIdx) (imm : BitVec 13)
  -- loads (R180 to R184) and stores (R186 to R188)
  | lb (rd rs1 : RegIdx) (imm : BitVec 12)
  | lh (rd rs1 : RegIdx) (imm : BitVec 12)
  | lw (rd rs1 : RegIdx) (imm : BitVec 12)
  | lbu (rd rs1 : RegIdx) (imm : BitVec 12)
  | lhu (rd rs1 : RegIdx) (imm : BitVec 12)
  | sb (rs1 rs2 : RegIdx) (imm : BitVec 12)
  | sh (rs1 rs2 : RegIdx) (imm : BitVec 12)
  | sw (rs1 rs2 : RegIdx) (imm : BitVec 12)
  -- register-immediate (R200 to R208)
  | addi (rd rs1 : RegIdx) (imm : BitVec 12)
  | slti (rd rs1 : RegIdx) (imm : BitVec 12)
  | sltiu (rd rs1 : RegIdx) (imm : BitVec 12)
  | xori (rd rs1 : RegIdx) (imm : BitVec 12)
  | ori (rd rs1 : RegIdx) (imm : BitVec 12)
  | andi (rd rs1 : RegIdx) (imm : BitVec 12)
  | slli (rd rs1 : RegIdx) (shamt : BitVec 5)
  | srli (rd rs1 : RegIdx) (shamt : BitVec 5)
  | srai (rd rs1 : RegIdx) (shamt : BitVec 5)
  -- register-register (R220 to R229)
  | add (rd rs1 rs2 : RegIdx)
  | sub (rd rs1 rs2 : RegIdx)
  | sll (rd rs1 rs2 : RegIdx)
  | slt (rd rs1 rs2 : RegIdx)
  | sltu (rd rs1 rs2 : RegIdx)
  | xor (rd rs1 rs2 : RegIdx)
  | srl (rd rs1 rs2 : RegIdx)
  | sra (rd rs1 rs2 : RegIdx)
  | or (rd rs1 rs2 : RegIdx)
  | and (rd rs1 rs2 : RegIdx)
  -- multiply and divide (R240 to R247)
  | mul (rd rs1 rs2 : RegIdx)
  | mulh (rd rs1 rs2 : RegIdx)
  | mulhsu (rd rs1 rs2 : RegIdx)
  | mulhu (rd rs1 rs2 : RegIdx)
  | div (rd rs1 rs2 : RegIdx)
  | divu (rd rs1 rs2 : RegIdx)
  | rem (rd rs1 rs2 : RegIdx)
  | remu (rd rs1 rs2 : RegIdx)
  -- fences (R260, R261)
  | fence (pred succ : BitVec 4)
  | fencei
  -- system and CSR (R270 to R277)
  | ecall
  | ebreak
  | csrrw (rd : RegIdx) (csr : BitVec 12) (rs1 : RegIdx)
  | csrrs (rd : RegIdx) (csr : BitVec 12) (rs1 : RegIdx)
  | csrrc (rd : RegIdx) (csr : BitVec 12) (rs1 : RegIdx)
  | csrrwi (rd : RegIdx) (csr : BitVec 12) (zimm : BitVec 5)
  | csrrsi (rd : RegIdx) (csr : BitVec 12) (zimm : BitVec 5)
  | csrrci (rd : RegIdx) (csr : BitVec 12) (zimm : BitVec 5)
  -- every other word (R99), with no operand
  | unknown
  deriving DecidableEq, Repr

end Sys2Proof
end

