-- ==== Sys2Proof/Decode.lean ====
section
/-! DEFINITION. The decoder: the BitfieldExtractor and the fields of a word (R61 to R72), the OpcodeClassifier
(R89 to R101), the instruction a word stands for, the reading of a word from bytes (R42), and the encoder. -/

namespace Sys2Proof

/-! ## BitfieldExtractor -/

/-- `extract(word, high, low)` (R72), the bits `hi` down to `lo` right-aligned. Every use below has fixed bounds
with `lo ≤ hi ≤ 31` (R304). -/
def extract (w : Word) (hi lo : Nat) : BitVec (hi - lo + 1) :=
  w.extractLsb hi lo

/-! ## The fields of a word (R61) -/

def opField (w : Word) : BitVec 7 := extract w 6 0
def rdField (w : Word) : RegIdx := extract w 11 7
def f3Field (w : Word) : BitVec 3 := extract w 14 12
def rs1Field (w : Word) : RegIdx := extract w 19 15
def rs2Field (w : Word) : RegIdx := extract w 24 20
def f7Field (w : Word) : BitVec 7 := extract w 31 25
def fmField (w : Word) : BitVec 4 := extract w 31 28
def lo20Field (w : Word) : BitVec 20 := extract w 19 0
def predField (w : Word) : BitVec 4 := extract w 27 24
def succField (w : Word) : BitVec 4 := extract w 23 20
def csrField (w : Word) : BitVec 12 := extract w 31 20
/-- The CSR immediate, at the place of rs1 (R84). -/
def zimmField (w : Word) : BitVec 5 := extract w 19 15
/-- The shift amount, at the place of rs2; `w[25]` is no part of it (R81). -/
def shamtField (w : Word) : BitVec 5 := extract w 24 20
/-- The I immediate before extension (R63). -/
def immIField (w : Word) : BitVec 12 := extract w 31 20
/-- The S immediate before extension, `(w[31:25] << 5) | w[11:7]` (R64, R77). -/
def immSField (w : Word) : BitVec 12 := extract w 31 25 ++ extract w 11 7
/-- `immB` (R65, R78), 13 bits with bit 0 zero. -/
def immBField (w : Word) : BitVec 13 :=
  extract w 31 31 ++ extract w 7 7 ++ extract w 30 25 ++ extract w 11 8 ++ 0#1
/-- `immU` (R66, R79), the field itself and not the field shifted. -/
def immUField (w : Word) : BitVec 20 := extract w 31 12
/-- `immJ` (R67, R80), 21 bits with bit 0 zero. -/
def immJField (w : Word) : BitVec 21 :=
  extract w 31 31 ++ extract w 19 12 ++ extract w 20 20 ++ extract w 30 21 ++ 0#1

/-! ## OpcodeClassifier -/

/-- BRANCH by funct3 (R93). -/
def classifyBranch (f3 : BitVec 3) : Kind :=
  match f3.toNat with
  | 0 => .beq | 1 => .bne | 4 => .blt | 5 => .bge | 6 => .bltu | 7 => .bgeu
  | _ => .unknown

/-- LOAD by funct3 (R94). -/
def classifyLoad (f3 : BitVec 3) : Kind :=
  match f3.toNat with
  | 0 => .lb | 1 => .lh | 2 => .lw | 4 => .lbu | 5 => .lhu
  | _ => .unknown

/-- STORE by funct3 (R95). -/
def classifyStore (f3 : BitVec 3) : Kind :=
  match f3.toNat with
  | 0 => .sb | 1 => .sh | 2 => .sw
  | _ => .unknown

/-- OP-IMM by funct3, and by funct7 for the shifts (R96). -/
def classifyOpImm (f3 : BitVec 3) (f7 : BitVec 7) : Kind :=
  match f3.toNat with
  | 0 => .addi | 2 => .slti | 3 => .sltiu | 4 => .xori | 6 => .ori | 7 => .andi
  | 1 => if f7 = 0b0000000#7 then .slli else .unknown
  | 5 => if f7 = 0b0000000#7 then .srli else if f7 = 0b0100000#7 then .srai else .unknown
  | _ => .unknown

/-- OP by funct7 and funct3 (R97). A corner case of R244 gives DIV for `0x02058533`, whose funct3 is 000; the word is MUL
here, by the match of R240 and the vector of the word in `95_test_vectors.md` (log entry 21). -/
def classifyOp (f3 : BitVec 3) (f7 : BitVec 7) : Kind :=
  if f7 = 0b0000000#7 then
    match f3.toNat with
    | 0 => .add | 1 => .sll | 2 => .slt | 3 => .sltu | 4 => .xor | 5 => .srl | 6 => .or | 7 => .and
    | _ => .unknown
  else if f7 = 0b0100000#7 then
    match f3.toNat with
    | 0 => .sub | 5 => .sra
    | _ => .unknown
  else if f7 = 0b0000001#7 then
    match f3.toNat with
    | 0 => .mul | 1 => .mulh | 2 => .mulhsu | 3 => .mulhu | 4 => .div | 5 => .divu | 6 => .rem | 7 => .remu
    | _ => .unknown
  else .unknown

/-- SYSTEM by funct3, after the whole-word matches (R98). -/
def classifySystem (f3 : BitVec 3) : Kind :=
  match f3.toNat with
  | 1 => .csrrw | 2 => .csrrs | 3 => .csrrc | 5 => .csrrwi | 6 => .csrrsi | 7 => .csrrci
  | _ => .unknown

/-- The OpcodeClassifier, its checks in the order of the exhibit of R102: whole words (R90), FENCE (R91), the four
opcodes matched alone (R92), the families (R93 to R98), and UNKNOWN for the rest (R99). -/
def classify (w : Word) : Kind :=
  if w = 0x00000073#32 then .ecall
  else if w = 0x00100073#32 then .ebreak
  else if w = 0x0000100F#32 then .fencei
  else if fmField w = 0b0000#4 ∧ lo20Field w = 0x0000F#20 then .fence
  else if opField w = 0b0110111#7 then .lui
  else if opField w = 0b0010111#7 then .auipc
  else if opField w = 0b1101111#7 then .jal
  else if opField w = 0b1100111#7 then .jalr
  else if opField w = 0b1100011#7 then classifyBranch (f3Field w)
  else if opField w = 0b0000011#7 then classifyLoad (f3Field w)
  else if opField w = 0b0100011#7 then classifyStore (f3Field w)
  else if opField w = 0b0010011#7 then classifyOpImm (f3Field w) (f7Field w)
  else if opField w = 0b0110011#7 then classifyOp (f3Field w) (f7Field w)
  else if opField w = 0b1110011#7 then classifySystem (f3Field w)
  else .unknown

/-! ## From a kind to the instruction (the field selection of the OperandDecoder, R2, R110) -/

/-- The instruction of a kind with the fields its format selects from the word (R23, R75 to R84, R88). -/
def instrOf (k : Kind) (w : Word) : Instr :=
  match k with
  | .unknown => .unknown
  | .lui => .lui (rdField w) (immUField w)
  | .auipc => .auipc (rdField w) (immUField w)
  | .jal => .jal (rdField w) (immJField w)
  | .jalr => .jalr (rdField w) (rs1Field w) (immIField w)
  | .beq => .beq (rs1Field w) (rs2Field w) (immBField w)
  | .bne => .bne (rs1Field w) (rs2Field w) (immBField w)
  | .blt => .blt (rs1Field w) (rs2Field w) (immBField w)
  | .bge => .bge (rs1Field w) (rs2Field w) (immBField w)
  | .bltu => .bltu (rs1Field w) (rs2Field w) (immBField w)
  | .bgeu => .bgeu (rs1Field w) (rs2Field w) (immBField w)
  | .lb => .lb (rdField w) (rs1Field w) (immIField w)
  | .lh => .lh (rdField w) (rs1Field w) (immIField w)
  | .lw => .lw (rdField w) (rs1Field w) (immIField w)
  | .lbu => .lbu (rdField w) (rs1Field w) (immIField w)
  | .lhu => .lhu (rdField w) (rs1Field w) (immIField w)
  | .sb => .sb (rs1Field w) (rs2Field w) (immSField w)
  | .sh => .sh (rs1Field w) (rs2Field w) (immSField w)
  | .sw => .sw (rs1Field w) (rs2Field w) (immSField w)
  | .addi => .addi (rdField w) (rs1Field w) (immIField w)
  | .slti => .slti (rdField w) (rs1Field w) (immIField w)
  | .sltiu => .sltiu (rdField w) (rs1Field w) (immIField w)
  | .xori => .xori (rdField w) (rs1Field w) (immIField w)
  | .ori => .ori (rdField w) (rs1Field w) (immIField w)
  | .andi => .andi (rdField w) (rs1Field w) (immIField w)
  | .slli => .slli (rdField w) (rs1Field w) (shamtField w)
  | .srli => .srli (rdField w) (rs1Field w) (shamtField w)
  | .srai => .srai (rdField w) (rs1Field w) (shamtField w)
  | .add => .add (rdField w) (rs1Field w) (rs2Field w)
  | .sub => .sub (rdField w) (rs1Field w) (rs2Field w)
  | .sll => .sll (rdField w) (rs1Field w) (rs2Field w)
  | .slt => .slt (rdField w) (rs1Field w) (rs2Field w)
  | .sltu => .sltu (rdField w) (rs1Field w) (rs2Field w)
  | .xor => .xor (rdField w) (rs1Field w) (rs2Field w)
  | .srl => .srl (rdField w) (rs1Field w) (rs2Field w)
  | .sra => .sra (rdField w) (rs1Field w) (rs2Field w)
  | .or => .or (rdField w) (rs1Field w) (rs2Field w)
  | .and => .and (rdField w) (rs1Field w) (rs2Field w)
  | .mul => .mul (rdField w) (rs1Field w) (rs2Field w)
  | .mulh => .mulh (rdField w) (rs1Field w) (rs2Field w)
  | .mulhsu => .mulhsu (rdField w) (rs1Field w) (rs2Field w)
  | .mulhu => .mulhu (rdField w) (rs1Field w) (rs2Field w)
  | .div => .div (rdField w) (rs1Field w) (rs2Field w)
  | .divu => .divu (rdField w) (rs1Field w) (rs2Field w)
  | .rem => .rem (rdField w) (rs1Field w) (rs2Field w)
  | .remu => .remu (rdField w) (rs1Field w) (rs2Field w)
  | .fence => .fence (predField w) (succField w)
  | .fencei => .fencei
  | .ecall => .ecall
  | .ebreak => .ebreak
  | .csrrw => .csrrw (rdField w) (csrField w) (rs1Field w)
  | .csrrs => .csrrs (rdField w) (csrField w) (rs1Field w)
  | .csrrc => .csrrc (rdField w) (csrField w) (rs1Field w)
  | .csrrwi => .csrrwi (rdField w) (csrField w) (zimmField w)
  | .csrrsi => .csrrsi (rdField w) (csrField w) (zimmField w)
  | .csrrci => .csrrci (rdField w) (csrField w) (zimmField w)

/-- The instruction a word stands for: the classifier selects the kind and the kind selects the fields (R2). It is
total, and UNKNOWN is one of its values (R101). -/
def decodeWord (w : Word) : Instr :=
  instrOf (classify w) w

/-- The kind of an instruction: the constructor's name (R30). -/
def Instr.kind : Instr → Kind
  | .unknown => .unknown
  | .lui _ _ => .lui
  | .auipc _ _ => .auipc
  | .jal _ _ => .jal
  | .jalr _ _ _ => .jalr
  | .beq _ _ _ => .beq
  | .bne _ _ _ => .bne
  | .blt _ _ _ => .blt
  | .bge _ _ _ => .bge
  | .bltu _ _ _ => .bltu
  | .bgeu _ _ _ => .bgeu
  | .lb _ _ _ => .lb
  | .lh _ _ _ => .lh
  | .lw _ _ _ => .lw
  | .lbu _ _ _ => .lbu
  | .lhu _ _ _ => .lhu
  | .sb _ _ _ => .sb
  | .sh _ _ _ => .sh
  | .sw _ _ _ => .sw
  | .addi _ _ _ => .addi
  | .slti _ _ _ => .slti
  | .sltiu _ _ _ => .sltiu
  | .xori _ _ _ => .xori
  | .ori _ _ _ => .ori
  | .andi _ _ _ => .andi
  | .slli _ _ _ => .slli
  | .srli _ _ _ => .srli
  | .srai _ _ _ => .srai
  | .add _ _ _ => .add
  | .sub _ _ _ => .sub
  | .sll _ _ _ => .sll
  | .slt _ _ _ => .slt
  | .sltu _ _ _ => .sltu
  | .xor _ _ _ => .xor
  | .srl _ _ _ => .srl
  | .sra _ _ _ => .sra
  | .or _ _ _ => .or
  | .and _ _ _ => .and
  | .mul _ _ _ => .mul
  | .mulh _ _ _ => .mulh
  | .mulhsu _ _ _ => .mulhsu
  | .mulhu _ _ _ => .mulhu
  | .div _ _ _ => .div
  | .divu _ _ _ => .divu
  | .rem _ _ _ => .rem
  | .remu _ _ _ => .remu
  | .fence _ _ => .fence
  | .fencei => .fencei
  | .ecall => .ecall
  | .ebreak => .ebreak
  | .csrrw _ _ _ => .csrrw
  | .csrrs _ _ _ => .csrrs
  | .csrrc _ _ _ => .csrrc
  | .csrrwi _ _ _ => .csrrwi
  | .csrrsi _ _ _ => .csrrsi
  | .csrrci _ _ _ => .csrrci

/-! ## The opcode table (`spec/opcode_table.json`) -/

/-- The bits the row of a kind fixes. -/
def tableMask : Kind → Word
  | .unknown => 0x00000000#32
  | .lui | .auipc | .jal | .jalr => 0x0000007F#32
  | .beq | .bne | .blt | .bge | .bltu | .bgeu | .lb | .lh | .lw | .lbu | .lhu | .sb | .sh | .sw | .addi
  | .slti | .sltiu | .xori | .ori | .andi | .csrrw | .csrrs | .csrrc | .csrrwi | .csrrsi | .csrrci => 0x0000707F#32
  | .slli | .srli | .srai | .add | .sub | .sll | .slt | .sltu | .xor | .srl | .sra | .or | .and | .mul
  | .mulh | .mulhsu | .mulhu | .div | .divu | .rem | .remu => 0xFE00707F#32
  | .fence => 0xF00FFFFF#32
  | .fencei | .ecall | .ebreak => 0xFFFFFFFF#32

/-- The values of the fixed bits of the row of a kind. -/
def tableMatch : Kind → Word
  | .unknown => 0x00000000#32
  | .lui => 0x00000037#32
  | .auipc => 0x00000017#32
  | .jal => 0x0000006F#32
  | .jalr => 0x00000067#32
  | .beq => 0x00000063#32
  | .bne => 0x00001063#32
  | .blt => 0x00004063#32
  | .bge => 0x00005063#32
  | .bltu => 0x00006063#32
  | .bgeu => 0x00007063#32
  | .lb => 0x00000003#32
  | .lh => 0x00001003#32
  | .lw => 0x00002003#32
  | .lbu => 0x00004003#32
  | .lhu => 0x00005003#32
  | .sb => 0x00000023#32
  | .sh => 0x00001023#32
  | .sw => 0x00002023#32
  | .addi => 0x00000013#32
  | .slti => 0x00002013#32
  | .sltiu => 0x00003013#32
  | .xori => 0x00004013#32
  | .ori => 0x00006013#32
  | .andi => 0x00007013#32
  | .slli => 0x00001013#32
  | .srli => 0x00005013#32
  | .srai => 0x40005013#32
  | .add => 0x00000033#32
  | .sub => 0x40000033#32
  | .sll => 0x00001033#32
  | .slt => 0x00002033#32
  | .sltu => 0x00003033#32
  | .xor => 0x00004033#32
  | .srl => 0x00005033#32
  | .sra => 0x40005033#32
  | .or => 0x00006033#32
  | .and => 0x00007033#32
  | .mul => 0x02000033#32
  | .mulh => 0x02001033#32
  | .mulhsu => 0x02002033#32
  | .mulhu => 0x02003033#32
  | .div => 0x02004033#32
  | .divu => 0x02005033#32
  | .rem => 0x02006033#32
  | .remu => 0x02007033#32
  | .fence => 0x0000000F#32
  | .fencei => 0x0000100F#32
  | .ecall => 0x00000073#32
  | .ebreak => 0x00100073#32
  | .csrrw => 0x00001073#32
  | .csrrs => 0x00002073#32
  | .csrrc => 0x00003073#32
  | .csrrwi => 0x00005073#32
  | .csrrsi => 0x00006073#32
  | .csrrci => 0x00007073#32

/-- The row of kind `k` matches the word. UNKNOWN has no row of its own: it is every word that no other row
matches (R99). -/
def rowMatches (k : Kind) (w : Word) : Bool :=
  k != .unknown && (w &&& tableMask k == tableMatch k)

/-! ## Words and bytes (R42) -/

/-- Why no word can be read: fewer than the four bytes every instruction has (R60). -/
inductive DecodeError where
  | truncated (bytesLeft : Nat)
  deriving DecidableEq, Repr

/-- Four bytes as one word, little-endian: the byte at the lowest address is `insn_i[7:0]` (R42). -/
def wordOfBytes (b0 b1 b2 b3 : Byte) : Word :=
  b3 ++ b2 ++ b1 ++ b0

/-- The bytes of a word, the lowest address first (R42). -/
def bytesOfWord (w : Word) : List Byte :=
  [w.extractLsb' 0 8, w.extractLsb' 8 8, w.extractLsb' 16 8, w.extractLsb' 24 8]

/-- Reads one instruction from the front of a byte sequence. Every four bytes decode (R101); there is no other
length (R60). -/
def decodeBytes : List Byte → Except DecodeError (Instr × List Byte)
  | b0 :: b1 :: b2 :: b3 :: rest => .ok (decodeWord (wordOfBytes b0 b1 b2 b3), rest)
  | short => .error (.truncated short.length)

/-- The instruction the decoder reads from a table word of `nbits` bits: laid out little-endian, the bits above
`nbits` zero. An instruction has exactly 32 bits (R60), so a longer word is none. -/
def decodeTableWord (nbits w : Nat) : Option Instr :=
  if nbits ≤ 32 then
    match decodeBytes (bytesOfWord (BitVec.ofNat 32 (w % 2 ^ nbits))) with
    | .ok (i, _) => some i
    | .error _ => none
  else none

/-! ## The encoder -/

/-- R format (R62). -/
def encodeR (f7 : BitVec 7) (f3 : BitVec 3) (op : BitVec 7) (rd rs1 rs2 : RegIdx) : Word :=
  f7 ++ rs2 ++ rs1 ++ f3 ++ rd ++ op

/-- I format (R63). -/
def encodeI (f3 : BitVec 3) (op : BitVec 7) (rd rs1 : RegIdx) (imm : BitVec 12) : Word :=
  imm ++ rs1 ++ f3 ++ rd ++ op

/-- S format (R64). -/
def encodeS (f3 : BitVec 3) (rs1 rs2 : RegIdx) (imm : BitVec 12) : Word :=
  imm.extractLsb' 5 7 ++ rs2 ++ rs1 ++ f3 ++ imm.extractLsb' 0 5 ++ 0b0100011#7

/-- B format (R65); bit 0 of the immediate is not encoded. -/
def encodeB (f3 : BitVec 3) (rs1 rs2 : RegIdx) (imm : BitVec 13) : Word :=
  imm.extractLsb' 12 1 ++ imm.extractLsb' 5 6 ++ rs2 ++ rs1 ++ f3 ++ imm.extractLsb' 1 4 ++
    imm.extractLsb' 11 1 ++ 0b1100011#7

/-- U format (R66). -/
def encodeU (op : BitVec 7) (rd : RegIdx) (imm : BitVec 20) : Word :=
  imm ++ rd ++ op

/-- J format (R67); bit 0 of the immediate is not encoded. -/
def encodeJ (rd : RegIdx) (imm : BitVec 21) : Word :=
  imm.extractLsb' 20 1 ++ imm.extractLsb' 1 10 ++ imm.extractLsb' 11 1 ++ imm.extractLsb' 12 8 ++ rd ++
    0b1101111#7

/-- SHIFT format (R68). -/
def encodeShift (f7 : BitVec 7) (f3 : BitVec 3) (rd rs1 : RegIdx) (shamt : BitVec 5) : Word :=
  f7 ++ shamt ++ rs1 ++ f3 ++ rd ++ 0b0010011#7

/-- FENCE format (R69, R91). -/
def encodeFence (pred succ : BitVec 4) : Word :=
  0b0000#4 ++ pred ++ succ ++ 0x0000F#20

/-- CSR and CSRI formats (R70, R71): the source field is rs1 or zimm. -/
def encodeCsr (f3 : BitVec 3) (rd : RegIdx) (csr : BitVec 12) (source : BitVec 5) : Word :=
  csr ++ source ++ f3 ++ rd ++ 0b1110011#7

/-- The word of an instruction. Two choices are the model's (log entry 8): JALR is written with funct3 `000`, the
only one of its eight spellings an assembler gives, and UNKNOWN, which many words decode to, as the all-zero word. -/
def encode : Instr → Word
  | .unknown => 0x00000000#32
  | .lui rd imm => encodeU 0b0110111#7 rd imm
  | .auipc rd imm => encodeU 0b0010111#7 rd imm
  | .jal rd imm => encodeJ rd imm
  | .jalr rd rs1 imm => encodeI 0b000#3 0b1100111#7 rd rs1 imm
  | .beq rs1 rs2 imm => encodeB 0b000#3 rs1 rs2 imm
  | .bne rs1 rs2 imm => encodeB 0b001#3 rs1 rs2 imm
  | .blt rs1 rs2 imm => encodeB 0b100#3 rs1 rs2 imm
  | .bge rs1 rs2 imm => encodeB 0b101#3 rs1 rs2 imm
  | .bltu rs1 rs2 imm => encodeB 0b110#3 rs1 rs2 imm
  | .bgeu rs1 rs2 imm => encodeB 0b111#3 rs1 rs2 imm
  | .lb rd rs1 imm => encodeI 0b000#3 0b0000011#7 rd rs1 imm
  | .lh rd rs1 imm => encodeI 0b001#3 0b0000011#7 rd rs1 imm
  | .lw rd rs1 imm => encodeI 0b010#3 0b0000011#7 rd rs1 imm
  | .lbu rd rs1 imm => encodeI 0b100#3 0b0000011#7 rd rs1 imm
  | .lhu rd rs1 imm => encodeI 0b101#3 0b0000011#7 rd rs1 imm
  | .sb rs1 rs2 imm => encodeS 0b000#3 rs1 rs2 imm
  | .sh rs1 rs2 imm => encodeS 0b001#3 rs1 rs2 imm
  | .sw rs1 rs2 imm => encodeS 0b010#3 rs1 rs2 imm
  | .addi rd rs1 imm => encodeI 0b000#3 0b0010011#7 rd rs1 imm
  | .slti rd rs1 imm => encodeI 0b010#3 0b0010011#7 rd rs1 imm
  | .sltiu rd rs1 imm => encodeI 0b011#3 0b0010011#7 rd rs1 imm
  | .xori rd rs1 imm => encodeI 0b100#3 0b0010011#7 rd rs1 imm
  | .ori rd rs1 imm => encodeI 0b110#3 0b0010011#7 rd rs1 imm
  | .andi rd rs1 imm => encodeI 0b111#3 0b0010011#7 rd rs1 imm
  | .slli rd rs1 shamt => encodeShift 0b0000000#7 0b001#3 rd rs1 shamt
  | .srli rd rs1 shamt => encodeShift 0b0000000#7 0b101#3 rd rs1 shamt
  | .srai rd rs1 shamt => encodeShift 0b0100000#7 0b101#3 rd rs1 shamt
  | .add rd rs1 rs2 => encodeR 0b0000000#7 0b000#3 0b0110011#7 rd rs1 rs2
  | .sub rd rs1 rs2 => encodeR 0b0100000#7 0b000#3 0b0110011#7 rd rs1 rs2
  | .sll rd rs1 rs2 => encodeR 0b0000000#7 0b001#3 0b0110011#7 rd rs1 rs2
  | .slt rd rs1 rs2 => encodeR 0b0000000#7 0b010#3 0b0110011#7 rd rs1 rs2
  | .sltu rd rs1 rs2 => encodeR 0b0000000#7 0b011#3 0b0110011#7 rd rs1 rs2
  | .xor rd rs1 rs2 => encodeR 0b0000000#7 0b100#3 0b0110011#7 rd rs1 rs2
  | .srl rd rs1 rs2 => encodeR 0b0000000#7 0b101#3 0b0110011#7 rd rs1 rs2
  | .sra rd rs1 rs2 => encodeR 0b0100000#7 0b101#3 0b0110011#7 rd rs1 rs2
  | .or rd rs1 rs2 => encodeR 0b0000000#7 0b110#3 0b0110011#7 rd rs1 rs2
  | .and rd rs1 rs2 => encodeR 0b0000000#7 0b111#3 0b0110011#7 rd rs1 rs2
  | .mul rd rs1 rs2 => encodeR 0b0000001#7 0b000#3 0b0110011#7 rd rs1 rs2
  | .mulh rd rs1 rs2 => encodeR 0b0000001#7 0b001#3 0b0110011#7 rd rs1 rs2
  | .mulhsu rd rs1 rs2 => encodeR 0b0000001#7 0b010#3 0b0110011#7 rd rs1 rs2
  | .mulhu rd rs1 rs2 => encodeR 0b0000001#7 0b011#3 0b0110011#7 rd rs1 rs2
  | .div rd rs1 rs2 => encodeR 0b0000001#7 0b100#3 0b0110011#7 rd rs1 rs2
  | .divu rd rs1 rs2 => encodeR 0b0000001#7 0b101#3 0b0110011#7 rd rs1 rs2
  | .rem rd rs1 rs2 => encodeR 0b0000001#7 0b110#3 0b0110011#7 rd rs1 rs2
  | .remu rd rs1 rs2 => encodeR 0b0000001#7 0b111#3 0b0110011#7 rd rs1 rs2
  | .fence pred succ => encodeFence pred succ
  | .fencei => 0x0000100F#32
  | .ecall => 0x00000073#32
  | .ebreak => 0x00100073#32
  | .csrrw rd csr rs1 => encodeCsr 0b001#3 rd csr rs1
  | .csrrs rd csr rs1 => encodeCsr 0b010#3 rd csr rs1
  | .csrrc rd csr rs1 => encodeCsr 0b011#3 rd csr rs1
  | .csrrwi rd csr zimm => encodeCsr 0b101#3 rd csr zimm
  | .csrrsi rd csr zimm => encodeCsr 0b110#3 rd csr zimm
  | .csrrci rd csr zimm => encodeCsr 0b111#3 rd csr zimm

end Sys2Proof
end

