-- ==== Sys2Proof/Machine/Flags.lean ====
section
/-! DEFINITION. The block has no flags (R26). The source's two "flags" are attributes of a kind, no state (entry
N15 of `91_not_in_source.md`): they and the format of each kind are the table of R110, kept here. -/

namespace Sys2Proof.Machine

/-- The format of a kind (R110): each kind has exactly one. -/
def kindFormat : Kind → Format
  | .lui | .auipc => .u
  | .jal => .j
  | .jalr => .i
  | .beq | .bne | .blt | .bge | .bltu | .bgeu => .b
  | .lb | .lh | .lw | .lbu | .lhu => .i
  | .sb | .sh | .sw => .s
  | .addi | .slti | .sltiu | .xori | .ori | .andi => .i
  | .slli | .srli | .srai => .shift
  | .add | .sub | .sll | .slt | .sltu | .xor | .srl | .sra | .or | .and => .r
  | .mul | .mulh | .mulhsu | .mulhu | .div | .divu | .rem | .remu => .r
  | .fence => .fence
  | .fencei | .ecall | .ebreak => .none
  | .csrrw | .csrrs | .csrrc => .csr
  | .csrrwi | .csrrsi | .csrrci => .csri
  | .unknown => .unknown

/-- The bracket-vs-comma rendering flag (R110): the memory operand of loads and stores is `imm(rs1)` (R130). -/
def bracket : Kind → Bool
  | .lb | .lh | .lw | .lbu | .lhu | .sb | .sh | .sw => true
  | .lui | .auipc | .jal | .jalr => false
  | .beq | .bne | .blt | .bge | .bltu | .bgeu => false
  | .addi | .slti | .sltiu | .xori | .ori | .andi | .slli | .srli | .srai => false
  | .add | .sub | .sll | .slt | .sltu | .xor | .srl | .sra | .or | .and => false
  | .mul | .mulh | .mulhsu | .mulhu | .div | .divu | .rem | .remu => false
  | .fence | .fencei | .ecall | .ebreak => false
  | .csrrw | .csrrs | .csrrc | .csrrwi | .csrrsi | .csrrci => false
  | .unknown => false

end Sys2Proof.Machine
end

