-- ==== Sys2Proof/Config.lean ====
section
/-! DEFINITION. The parameters of the block and of its host, the block's output ports, and the free values of
the ports before the host drives the input (R21, R22, R321, R347, R348). -/

namespace Sys2Proof

/-- `IMM_MODE` (R12, R21): the static parameter that selects the extension point of the B, U and J immediates and
the signedness of SLTIU's. -/
inductive ImmMode where
  | compat
  | arch
  deriving DecidableEq, Repr

/-- `HEX_CASE` (R347), an OPEN parameter of the host: the letter case of the line address. -/
inductive HexCase where
  | lower
  | upper
  deriving DecidableEq, Repr

/-- `LINE_ADDR` (R348), an OPEN parameter of the host: which address a listing line shows. -/
inductive LineAddr where
  | absolute
  | sectionOffset
  deriving DecidableEq, Repr

/-- The parameters fixed before the first word is fed (R12, R14, R322, R324). -/
structure Params where
  immMode  : ImmMode
  hexCase  : HexCase
  lineAddr : LineAddr
  deriving DecidableEq, Repr

/-- The eleven output ports (R22). A field that the current format does not use is driven to 0 (R23), which is
the default of every operand port here. -/
structure Outputs where
  kind_o  : BitVec 6
  fmt_o   : BitVec 4
  rd_o    : BitVec 5  := 0
  rs1_o   : BitVec 5  := 0
  rs2_o   : BitVec 5  := 0
  imm_o   : BitVec 32 := 0
  shamt_o : BitVec 5  := 0
  pred_o  : BitVec 4  := 0
  succ_o  : BitVec 4  := 0
  csr_o   : BitVec 12 := 0
  zimm_o  : BitVec 5  := 0
  deriving DecidableEq, Repr, Inhabited

/-- FREE VALUE (log entry 1): what stands on `insn_i` before the host drives it. R321 calls it undefined. -/
opaque Config.undrivenInsn : Word

/-- FREE VALUE (log entry 1): what the output ports carry while `insn_i` is undefined (R321; entry I11 of
`93_implementation_defined.md`: any value). -/
opaque Config.undrivenOutputs : Outputs

end Sys2Proof
end

