-- ==== Sys2Proof/Machine/Operands.lean ====
section
/-! DEFINITION. The OperandDecoder: the SignExtender, the immediate of every format in both modes, the codes of
kinds and formats, and the flattening of a decoded record onto the output ports. -/

namespace Sys2Proof.Machine

/-- The SignExtender (R73), the source's arithmetic identity word for word: bits below `s` are kept, bit `s` weighs
`-2^s`, and every bit above `s` is discarded. -/
def signExtend (value s : Nat) : Int :=
  -((value &&& (1 <<< s) : Nat) : Int) + ((value &&& ((1 <<< s) - 1) : Nat) : Int)

/-- The signed I immediate, the same in both modes (R75). -/
def immI (imm : BitVec 12) : Int :=
  signExtend imm.toNat 11

/-- The I immediate of SLTIU (R76): unsigned in COMPAT, signed in ARCH. -/
def immISltiu (m : ImmMode) (imm : BitVec 12) : Int :=
  match m with
  | .compat => (imm.toNat : Int)
  | .arch => signExtend imm.toNat 11

/-- The S immediate, the same in both modes (R77). -/
def immS (imm : BitVec 12) : Int :=
  signExtend imm.toNat 11

/-- The B immediate (R78): extended from bit 11 in COMPAT, from bit 12 in ARCH. -/
def immB (m : ImmMode) (imm : BitVec 13) : Int :=
  match m with
  | .compat => signExtend imm.toNat 11
  | .arch => signExtend imm.toNat 12

/-- The U immediate (R79), the field and not the field shifted: from bit 11 in COMPAT, from bit 19 in ARCH. -/
def immU (m : ImmMode) (imm : BitVec 20) : Int :=
  match m with
  | .compat => signExtend imm.toNat 11
  | .arch => signExtend imm.toNat 19

/-- The J immediate (R80): from bit 11 in COMPAT, from bit 20 in ARCH. -/
def immJ (m : ImmMode) (imm : BitVec 21) : Int :=
  match m with
  | .compat => signExtend imm.toNat 11
  | .arch => signExtend imm.toNat 20

/-- The value of a 32-bit port: the two's-complement representation of the integer (R16, R22). -/
def port32 (v : Int) : BitVec 32 :=
  BitVec.ofInt 32 v

/-- The format a record has (R23). -/
def formatOf : Operands → Format
  | .r .. => .r | .i .. => .i | .s .. => .s | .b .. => .b | .u .. => .u | .j .. => .j
  | .shift .. => .shift | .fence .. => .fence | .csr .. => .csr | .csri .. => .csri
  | .none => .none | .unknown => .unknown

/-- The code of a format on `fmt_o` (R31). -/
def formatCode : Format → BitVec 4
  | .unknown => 0 | .r => 1 | .i => 2 | .s => 3 | .b => 4 | .u => 5 | .j => 6 | .shift => 7
  | .fence => 8 | .csr => 9 | .csri => 10 | .none => 11

/-- The code of a kind on `kind_o` (R30). -/
def kindCode : Kind → BitVec 6
  | .unknown => 0
  | .lui => 1 | .auipc => 2 | .jal => 3 | .jalr => 4
  | .beq => 5 | .bne => 6 | .blt => 7 | .bge => 8 | .bltu => 9 | .bgeu => 10
  | .lb => 11 | .lh => 12 | .lw => 13 | .lbu => 14 | .lhu => 15 | .sb => 16 | .sh => 17 | .sw => 18
  | .addi => 19 | .slti => 20 | .sltiu => 21 | .xori => 22 | .ori => 23 | .andi => 24
  | .slli => 25 | .srli => 26 | .srai => 27
  | .add => 28 | .sub => 29 | .sll => 30 | .slt => 31 | .sltu => 32
  | .xor => 33 | .srl => 34 | .sra => 35 | .or => 36 | .and => 37
  | .mul => 38 | .mulh => 39 | .mulhsu => 40 | .mulhu => 41
  | .div => 42 | .divu => 43 | .rem => 44 | .remu => 45
  | .fence => 46 | .fencei => 47 | .ecall => 48 | .ebreak => 49
  | .csrrw => 50 | .csrrs => 51 | .csrrc => 52 | .csrrwi => 53 | .csrrsi => 54 | .csrrci => 55

/-- A decoded record on the ports (R22): the fields R23 lists for its format, every other one at 0. -/
def outputs (k : Kind) (ops : Operands) : Outputs :=
  let o : Outputs := { kind_o := kindCode k, fmt_o := formatCode (formatOf ops) }
  match ops with
  | .r rd rs1 rs2 => { o with rd_o := rd, rs1_o := rs1, rs2_o := rs2 }
  | .i rd rs1 imm => { o with rd_o := rd, rs1_o := rs1, imm_o := port32 imm }
  | .s rs1 rs2 imm => { o with rs1_o := rs1, rs2_o := rs2, imm_o := port32 imm }
  | .b rs1 rs2 imm => { o with rs1_o := rs1, rs2_o := rs2, imm_o := port32 imm }
  | .u rd imm => { o with rd_o := rd, imm_o := port32 imm }
  | .j rd imm => { o with rd_o := rd, imm_o := port32 imm }
  | .shift rd rs1 shamt => { o with rd_o := rd, rs1_o := rs1, shamt_o := shamt }
  | .fence pred succ => { o with pred_o := pred, succ_o := succ }
  | .csr rd csr rs1 => { o with rd_o := rd, csr_o := csr, rs1_o := rs1 }
  | .csri rd csr zimm => { o with rd_o := rd, csr_o := csr, zimm_o := zimm }
  | .none => o
  | .unknown => o

end Sys2Proof.Machine
end

