-- ==== Sys2Proof/Machine/State.lean ====
section
/-! DEFINITION. The state: the decoder block's input and output ports with its static parameter, and the host
around it (the code buffer, the symbol table, the position in the pass and the text sink). The block itself holds no
state (R20, R24 to R29): no register, program counter, flag or CSR exists to be a field. -/

namespace Sys2Proof.Machine

/-- A SymbolEntry (R341): the resolved name, the absolute address, the size, which no rule reads, and the
type/binding byte. -/
structure SymbolEntry where
  name  : Text
  value : Word
  size  : Nat
  info  : Byte
  deriving DecidableEq, Repr

/-- What the excluded loader rejects an object file for (R305, R349): magic, class (bit width), endianness, machine
type, or a file it cannot read. -/
inductive ObjectDefect where
  | badMagic
  | badClass
  | badEndianness
  | badMachine
  | unreadable
  deriving DecidableEq, Repr

/-- The machine. Between two steps the block's outputs are the decode of `insn`, once a word has been fed. -/
structure State where
  /-- `IMM_MODE` of the block, `HEX_CASE` and `LINE_ADDR` of the host, fixed for a pass (R12, R322, R347, R348). -/
  params  : Params
  /-- The word on `insn_i` (R21). -/
  insn    : Word
  /-- The output ports (R22). -/
  out     : Outputs
  /-- The code section's bytes, each under its position in the section (R40, R346): cells in rising order. -/
  mem     : List Host.Cell
  /-- How many words the loader handed over (R340). -/
  nWords  : Nat
  /-- The base virtual address of the first word (R340). -/
  base    : Word
  /-- The symbol table, in table order (R340, R341). -/
  symbols : List SymbolEntry
  /-- Why the loader halted, if it did (R349). -/
  defect  : Option ObjectDefect
  /-- The index of the next word to feed, counting from 0 (R340, R346). -/
  index   : Nat
  /-- The lines written to the text sink, the first line first, each with its line feed (R344, R346, R350). -/
  sink    : List Text
  deriving DecidableEq, Repr

/-- Why the machine stops with a fault. The block has no fault state (R300); the one reason is the host's. -/
inductive Fault where
  /-- Raised by `step` alone: the word to feed has a byte the code buffer does not hold. Safe: the loader fills the
  buffer whole before the first word (R324), so no loaded machine reaches it. -/
  | codeByteAbsent
  deriving DecidableEq, Repr

/-- Why a step has no meaning. -/
inductive Refusal where
  /-- Raised by `exec` for an instruction without a meaning; no arm raises it. Safe. -/
  | notModelled (mnemonic : String)
  /-- Raised by `step` alone: the loader halted before the first word, so no word is fed and no line is written
  (R305, R349; entry I17 of `93_implementation_defined.md`: refuse). Safe. -/
  | objectRejected (d : ObjectDefect)
  deriving DecidableEq, Repr

/-- Right after reset. The block has no reset (R320): its input is not driven yet, so the ports carry free values
(R321, log entry 1), `IMM_MODE` is at its default (R12), and the host has been handed nothing. The two host
parameters have no default in the spec (log entry 2). -/
def State.reset : State where
  params  := { immMode := .compat, hexCase := .lower, lineAddr := .absolute }
  insn    := Config.undrivenInsn
  out     := Config.undrivenOutputs
  mem     := []
  nWords  := 0
  base    := 0
  symbols := []
  defect  := none
  index   := 0
  sink    := []

end Sys2Proof.Machine
end

