-- ==== Sys2Proof/Machine/Render.lean ====
section
/-! DEFINITION. The register-name decoder (R86, R87), the assembler syntax (R125 to R137), the LabelResolver (R342,
R343) and the InstructionRenderer's lines (R344, R345). -/

namespace Sys2Proof.Machine

/-- The bytes of an ASCII text. -/
def ascii (t : String) : Text :=
  t.toList.map fun c => BitVec.ofNat 8 c.toNat

/-! ## Register-name decoder -/

/-- The ABI names of indices 0 to 31 (R86). -/
def regNames : List String :=
  ["zero", "ra", "sp", "gp", "tp", "t0", "t1", "t2"] ++
  ["s0", "s1", "a0", "a1", "a2", "a3", "a4", "a5"] ++
  ["a6", "a7", "s2", "s3", "s4", "s5", "s6", "s7"] ++
  ["s8", "s9", "s10", "s11", "t3", "t4", "t5", "t6"]

/-- `regname(i)` (R86), total over the 32 indices. -/
def regName (i : RegIdx) : Text :=
  ascii (regNames.getD i.toNat "")

/-- `name_o` for `idx_i` (R87): the first character in the lowest byte, `0x00` past the end of the name. -/
def regNamePort (idx : RegIdx) : BitVec 32 :=
  let n := regName idx
  (n.getD 3 0 : Byte) ++ (n.getD 2 0 : Byte) ++ (n.getD 1 0 : Byte) ++ (n.getD 0 0 : Byte)

/-! ## Numbers -/

/-- A natural number in decimal, without sign or leading zeros (R128). -/
def decimalNat (n : Nat) : Text :=
  (Nat.toDigits 10 n).map fun c => BitVec.ofNat 8 c.toNat

/-- An integer in decimal: a leading `-` when negative, no sign otherwise (R128). -/
def decimal (v : Int) : Text :=
  if v < 0 then ascii "-" ++ decimalNat v.natAbs else decimalNat v.natAbs

/-- One hexadecimal digit in the letter case of `HEX_CASE` (R347). -/
def hexDigit (c : HexCase) (d : BitVec 4) : Byte :=
  if d.toNat < 10 then BitVec.ofNat 8 (0x30 + d.toNat)
  else match c with
    | .lower => BitVec.ofNat 8 (0x57 + d.toNat)
    | .upper => BitVec.ofNat 8 (0x37 + d.toNat)

/-- A line address as exactly 8 hexadecimal digits with leading zeros (R344). -/
def hex8 (c : HexCase) (a : Word) : Text :=
  [7, 6, 5, 4, 3, 2, 1, 0].map fun k => hexDigit c (a.extractLsb' (4 * k) 4)

/-! ## Mnemonics and operand strings -/

/-- The mnemonic of a kind, its name in lower case (R125); UNKNOWN in upper case. -/
def mnemonicName : Kind → String
  | .unknown => "UNKNOWN"
  | .lui => "lui" | .auipc => "auipc" | .jal => "jal" | .jalr => "jalr"
  | .beq => "beq" | .bne => "bne" | .blt => "blt" | .bge => "bge" | .bltu => "bltu" | .bgeu => "bgeu"
  | .lb => "lb" | .lh => "lh" | .lw => "lw" | .lbu => "lbu" | .lhu => "lhu"
  | .sb => "sb" | .sh => "sh" | .sw => "sw"
  | .addi => "addi" | .slti => "slti" | .sltiu => "sltiu"
  | .xori => "xori" | .ori => "ori" | .andi => "andi"
  | .slli => "slli" | .srli => "srli" | .srai => "srai"
  | .add => "add" | .sub => "sub" | .sll => "sll" | .slt => "slt" | .sltu => "sltu"
  | .xor => "xor" | .srl => "srl" | .sra => "sra" | .or => "or" | .and => "and"
  | .mul => "mul" | .mulh => "mulh" | .mulhsu => "mulhsu" | .mulhu => "mulhu"
  | .div => "div" | .divu => "divu" | .rem => "rem" | .remu => "remu"
  | .fence => "fence" | .fencei => "fence.i" | .ecall => "ecall" | .ebreak => "ebreak"
  | .csrrw => "csrrw" | .csrrs => "csrrs" | .csrrc => "csrrc"
  | .csrrwi => "csrrwi" | .csrrsi => "csrrsi" | .csrrci => "csrrci"

/-- The mnemonic as text. -/
def mnemonic (k : Kind) : Text :=
  ascii (mnemonicName k)

/-- The separator of operands: a comma and one space (R126). -/
def comma : Text :=
  ascii ", "

/-- The memory operand `imm(rs1)`, with no space (R126, R130). -/
def memOperand (imm : Int) (rs1 : RegIdx) : Text :=
  decimal imm ++ ascii "(" ++ regName rs1 ++ ascii ")"

/-- The operand string of a record (R129 to R137); `br` is the bracket attribute of its kind (R110). -/
def operandString (br : Bool) : Operands → Text
  | .r rd rs1 rs2 => regName rd ++ comma ++ regName rs1 ++ comma ++ regName rs2
  | .i rd rs1 imm =>
    if br then regName rd ++ comma ++ memOperand imm rs1
    else regName rd ++ comma ++ regName rs1 ++ comma ++ decimal imm
  | .s rs1 rs2 imm => regName rs2 ++ comma ++ memOperand imm rs1
  | .b rs1 rs2 imm => regName rs1 ++ comma ++ regName rs2 ++ comma ++ decimal imm
  | .u rd imm => regName rd ++ comma ++ decimal imm
  | .j rd imm => regName rd ++ comma ++ decimal imm
  | .shift rd rs1 shamt => regName rd ++ comma ++ regName rs1 ++ comma ++ decimalNat shamt.toNat
  | .fence pred succ => decimalNat pred.toNat ++ comma ++ decimalNat succ.toNat
  | .csr rd csr rs1 => regName rd ++ comma ++ decimalNat csr.toNat ++ comma ++ regName rs1
  | .csri rd csr zimm => regName rd ++ comma ++ decimalNat csr.toNat ++ comma ++ decimalNat zimm.toNat
  | .none => []
  | .unknown => []

/-! ## LabelResolver -/

/-- A function symbol: the low 4 bits of the type/binding byte are 2 (R341). -/
def SymbolEntry.isFunction (y : SymbolEntry) : Bool :=
  y.info.toNat % 16 == 2

/-- The symbol matches the address: exactly equal, and a function symbol (R342). -/
def SymbolEntry.labels (y : SymbolEntry) (a : Word) : Bool :=
  y.value == a && y.isFunction

/-- The label of an address: a scan of the table in order in which a later match overwrites an earlier one, from
nothing for every word (R342). -/
def label (symbols : List SymbolEntry) (a : Word) : Option Text :=
  symbols.foldl (fun result y => if y.labels a then some y.name else result) none

/-- The label text: the name in angle brackets, or nothing (R343). -/
def labelText : Option Text → Text
  | some name => ascii "<" ++ name ++ ascii ">"
  | none => []

/-! ## Lines -/

/-- `addr(index)`, modulo 2^32 (R340). -/
def wordAddress (base : Word) (index : Nat) : Word :=
  base + BitVec.ofNat 32 (4 * index)

/-- The address a line prints (R348). -/
def lineAddress (m : LineAddr) (base : Word) (index : Nat) : Word :=
  match m with
  | .absolute => wordAddress base index
  | .sectionOffset => BitVec.ofNat 32 (4 * index)

/-- What every line begins with: the line address, `: ` and the label text; the label is looked up by the absolute
address whatever the line prints (R343, R344, R345). -/
def lineHead (p : Params) (base : Word) (symbols : List SymbolEntry) (index : Nat) : Text :=
  hex8 p.hexCase (lineAddress p.lineAddr base index) ++ ascii ": " ++
    labelText (label symbols (wordAddress base index))

/-- What follows the head: two tabs and the mnemonic, with one tab and the operand string when there is one (R344);
for UNKNOWN one tab and the word `UNKNOWN` (R345). -/
def lineTail (k : Kind) (ops : Operands) : Text :=
  match k with
  | .unknown => ascii "\t" ++ ascii "UNKNOWN" ++ ascii "\n"
  | _ =>
    let operands := operandString (bracket k) ops
    ascii "\t\t" ++ mnemonic k ++ (if operands = [] then [] else ascii "\t" ++ operands) ++ ascii "\n"

end Sys2Proof.Machine
end

