-- ==== Sys2Proof/Machine/Ops.lean ====
section
/-! DEFINITION. The named operations: the code buffer's bytes, the loader's hand-over, feeding a word, and
delivering a decoded record, which is the effect every instruction has. The block takes no exception and returns
from none (R300, R308, R309), so there is no such operation. -/

namespace Sys2Proof.Machine

/-! ## The code buffer -/

/-- The canonical form: cells at strictly rising positions. A position that no cell lists holds no byte. -/
abbrev Memory.wf (m : List Host.Cell) : Prop :=
  m.Pairwise fun c d => c.1 < d.1

/-- The byte at a position of the code section, if the section has one there. -/
def Memory.read (m : List Host.Cell) (a : Nat) : Option Byte :=
  match m with
  | [] => none
  | c :: rest => if c.1 = a then some c.2 else Memory.read rest a

/-- Puts one byte, keeping the cells in rising order. -/
def Memory.write (m : List Host.Cell) (a : Nat) (b : Byte) : List Host.Cell :=
  match m with
  | [] => [(a, b)]
  | c :: rest =>
    if a < c.1 then (a, b) :: c :: rest
    else if a = c.1 then (a, b) :: rest
    else c :: Memory.write rest a b

/-- Puts bytes from a position on. -/
def Memory.writeBytes (m : List Host.Cell) (a : Nat) : List Byte → List Host.Cell
  | [] => m
  | b :: rest => Memory.writeBytes (Memory.write m a b) (a + 1) rest

/-- Word `index` of the code section: bytes `4*index` to `4*index + 3` (R346), little-endian (R42). -/
def Memory.readWord (m : List Host.Cell) (index : Nat) : Option Word :=
  match Memory.read m (4 * index), Memory.read m (4 * index + 1), Memory.read m (4 * index + 2),
      Memory.read m (4 * index + 3) with
  | some b0, some b1, some b2, some b3 => some (wordOfBytes b0 b1 b2 b3)
  | _, _, _, _ => none

/-! ## The loader's hand-over (R324, R340, R341, R349) -/

/-- A symbol as the object file holds it: the string table from the start of its name on. -/
structure ObjectSymbol where
  stringBytes : List Byte
  value       : Word
  size        : Nat
  info        : Byte
  deriving DecidableEq, Repr

/-- What the loader finds in an object file: a defect it halts on, or the code section and the symbols. -/
structure ObjectFile where
  defect    : Option ObjectDefect
  codeWords : List Word
  base      : Word
  symbols   : List ObjectSymbol
  deriving DecidableEq, Repr

/-- The name of a symbol: the bytes up to, not including, the first `0x00` (R341). -/
def resolveName (bytes : List Byte) : Text :=
  bytes.takeWhile (· != 0)

/-- A symbol as it is handed over, its name resolved (R340, R341). -/
def resolveSymbol (y : ObjectSymbol) : SymbolEntry :=
  { name := resolveName y.stringBytes, value := y.value, size := y.size, info := y.info }

/-- Step (1) of R324: the object file is validated and the verdict recorded. Nothing of it is loaded yet: a new pass
begins with empty buffers and an empty sink (log entry 7). -/
def State.validateObject (s : State) (o : ObjectFile) : State :=
  { s with defect := o.defect, mem := [], nWords := 0, symbols := [], index := 0, sink := [] }

/-- Step (2) of R324: the whole code section, the base address and the symbol table are loaded. -/
def State.loadObject (s : State) (o : ObjectFile) : State :=
  { s with
    mem := Memory.writeBytes [] 0 (o.codeWords.flatMap bytesOfWord), nWords := o.codeWords.length, base := o.base,
    symbols := o.symbols.map resolveSymbol }

/-- Step (3) of R324: `IMM_MODE` is fixed; that the two host parameters are fixed with it is the model's choice (log
entry 3). The ports are not driven again: on a block already used they keep the decode in the old mode until the next
word is fed, which is the model's choice, since R322 puts a change of `IMM_MODE` outside the block (log entry 7). -/
def State.fixParameters (s : State) (p : Params) : State :=
  { s with params := p }

/-- The steps a host completes before the first word, in the order of R324. On a defect it halts in step (1) (R349):
nothing is loaded, and the parameters are not reached and stay as they were (log entry 7). The ports are not driven
yet. -/
def State.handOver (s : State) (o : ObjectFile) (p : Params) : State :=
  match o.defect with
  | some _ => s.validateObject o
  | none => ((s.validateObject o).loadObject o).fixParameters p

/-- Puts one word where the next step feeds from, in a code section long enough to hold it, of an object file that
the loader accepted (log entry 3). -/
def State.placeWord (s : State) (w : Word) : State :=
  { s with
    mem := Memory.writeBytes s.mem (4 * s.index) (bytesOfWord w), nWords := max s.nWords (s.index + 1),
    defect := none }

/-! ## Feeding a word and delivering its record -/

/-- The word the host feeds next (R346). -/
def State.nextWord (s : State) : Option Word :=
  Memory.readWord s.mem s.index

/-- The host drives `insn_i` (R323). -/
def State.present (s : State) (w : Word) : State :=
  { s with insn := w }

/-- The block drives its output ports (R22, R323). -/
def State.drive (s : State) (o : Outputs) : State :=
  { s with out := o }

/-- The host writes one line to the sink (R346). -/
def State.emit (s : State) (line : Text) : State :=
  { s with sink := s.sink ++ [line] }

/-- The host moves on to the next word: always the next four bytes (R120, R346). -/
def State.advance (s : State) : State :=
  { s with index := s.index + 1 }

/-- The line of a record at the host's position (R344, R345). -/
def State.line (s : State) (k : Kind) (ops : Operands) : Text :=
  lineHead s.params s.base s.symbols s.index ++ lineTail k ops

/-- What every instruction does, UNKNOWN included (R300, R301, R346): the block drives the record on its ports, the
host writes its line and moves on. Nothing the instruction would compute on a hart is performed (R8). -/
def deliver (k : Kind) (ops : Operands) (s : State) : Host.Outcome State Fault Refusal :=
  .next (((s.drive (outputs k ops)).emit (s.line k ops)).advance)

end Sys2Proof.Machine
end

