-- ==== Sys2Proof/Machine/ControlTransfer.lean ====
section
/-! DEFINITION. JAL, JALR and the branches (`42_control_transfer.md`): the offset is output and no target is computed (R25, R44). -/

namespace Sys2Proof.Machine

/-- JAL (R160). -/
def execJal (rd : RegIdx) (imm : BitVec 21) (s : State) : Host.Outcome State Fault Refusal :=
  deliver .jal (.j rd (immJ s.params.immMode imm)) s

/-- JALR (R161). -/
def execJalr (rd rs1 : RegIdx) (imm : BitVec 12) (s : State) : Host.Outcome State Fault Refusal :=
  deliver .jalr (.i rd rs1 (immI imm)) s

/-- BEQ (R162). -/
def execBeq (rs1 rs2 : RegIdx) (imm : BitVec 13) (s : State) : Host.Outcome State Fault Refusal :=
  deliver .beq (.b rs1 rs2 (immB s.params.immMode imm)) s

/-- BNE (R163). -/
def execBne (rs1 rs2 : RegIdx) (imm : BitVec 13) (s : State) : Host.Outcome State Fault Refusal :=
  deliver .bne (.b rs1 rs2 (immB s.params.immMode imm)) s

/-- BLT (R164). -/
def execBlt (rs1 rs2 : RegIdx) (imm : BitVec 13) (s : State) : Host.Outcome State Fault Refusal :=
  deliver .blt (.b rs1 rs2 (immB s.params.immMode imm)) s

/-- BGE (R165). -/
def execBge (rs1 rs2 : RegIdx) (imm : BitVec 13) (s : State) : Host.Outcome State Fault Refusal :=
  deliver .bge (.b rs1 rs2 (immB s.params.immMode imm)) s

/-- BLTU (R166). -/
def execBltu (rs1 rs2 : RegIdx) (imm : BitVec 13) (s : State) : Host.Outcome State Fault Refusal :=
  deliver .bltu (.b rs1 rs2 (immB s.params.immMode imm)) s

/-- BGEU (R167). -/
def execBgeu (rs1 rs2 : RegIdx) (imm : BitVec 13) (s : State) : Host.Outcome State Fault Refusal :=
  deliver .bgeu (.b rs1 rs2 (immB s.params.immMode imm)) s

end Sys2Proof.Machine
end

