-- ==== Sys2Proof/Machine/Fence.lean ====
section
/-! DEFINITION. FENCE and FENCE.I (`47_fence.md`): the block orders nothing (R48). -/

namespace Sys2Proof.Machine

/-- FENCE (R260). -/
def execFence (pred succ : BitVec 4) (s : State) : Host.Outcome State Fault Refusal :=
  deliver .fence (.fence pred succ) s

/-- FENCE.I (R261). -/
def execFencei (s : State) : Host.Outcome State Fault Refusal :=
  deliver .fencei .none s

end Sys2Proof.Machine
end

