-- ==== Sys2Proof/Machine/IntegerImmediate.lean ====
section
/-! DEFINITION. The register-immediate instructions (`44_integer_immediate.md`). -/

namespace Sys2Proof.Machine

/-- ADDI (R200). -/
def execAddi (rd rs1 : RegIdx) (imm : BitVec 12) (s : State) : Host.Outcome State Fault Refusal :=
  deliver .addi (.i rd rs1 (immI imm)) s

/-- SLTI (R201). -/
def execSlti (rd rs1 : RegIdx) (imm : BitVec 12) (s : State) : Host.Outcome State Fault Refusal :=
  deliver .slti (.i rd rs1 (immI imm)) s

/-- SLTIU (R202). -/
def execSltiu (rd rs1 : RegIdx) (imm : BitVec 12) (s : State) : Host.Outcome State Fault Refusal :=
  deliver .sltiu (.i rd rs1 (immISltiu s.params.immMode imm)) s

/-- XORI (R203). -/
def execXori (rd rs1 : RegIdx) (imm : BitVec 12) (s : State) : Host.Outcome State Fault Refusal :=
  deliver .xori (.i rd rs1 (immI imm)) s

/-- ORI (R204). -/
def execOri (rd rs1 : RegIdx) (imm : BitVec 12) (s : State) : Host.Outcome State Fault Refusal :=
  deliver .ori (.i rd rs1 (immI imm)) s

/-- ANDI (R205). -/
def execAndi (rd rs1 : RegIdx) (imm : BitVec 12) (s : State) : Host.Outcome State Fault Refusal :=
  deliver .andi (.i rd rs1 (immI imm)) s

/-- SLLI (R206). -/
def execSlli (rd rs1 : RegIdx) (shamt : BitVec 5) (s : State) : Host.Outcome State Fault Refusal :=
  deliver .slli (.shift rd rs1 shamt) s

/-- SRLI (R207). -/
def execSrli (rd rs1 : RegIdx) (shamt : BitVec 5) (s : State) : Host.Outcome State Fault Refusal :=
  deliver .srli (.shift rd rs1 shamt) s

/-- SRAI (R208); the source passes the amount through the SignExtender, which leaves it as it is (R81). -/
def execSrai (rd rs1 : RegIdx) (shamt : BitVec 5) (s : State) : Host.Outcome State Fault Refusal :=
  deliver .srai (.shift rd rs1 shamt) s

end Sys2Proof.Machine
end

