-- ==== Sys2Proof/Machine/IntegerRegister.lean ====
section
/-! DEFINITION. The register-register instructions (`45_integer_register.md`). -/

namespace Sys2Proof.Machine

/-- ADD (R220). -/
def execAdd (rd rs1 rs2 : RegIdx) (s : State) : Host.Outcome State Fault Refusal :=
  deliver .add (.r rd rs1 rs2) s

/-- SUB (R221). -/
def execSub (rd rs1 rs2 : RegIdx) (s : State) : Host.Outcome State Fault Refusal :=
  deliver .sub (.r rd rs1 rs2) s

/-- SLL (R222). -/
def execSll (rd rs1 rs2 : RegIdx) (s : State) : Host.Outcome State Fault Refusal :=
  deliver .sll (.r rd rs1 rs2) s

/-- SLT (R223). -/
def execSlt (rd rs1 rs2 : RegIdx) (s : State) : Host.Outcome State Fault Refusal :=
  deliver .slt (.r rd rs1 rs2) s

/-- SLTU (R224). -/
def execSltu (rd rs1 rs2 : RegIdx) (s : State) : Host.Outcome State Fault Refusal :=
  deliver .sltu (.r rd rs1 rs2) s

/-- XOR (R225). -/
def execXor (rd rs1 rs2 : RegIdx) (s : State) : Host.Outcome State Fault Refusal :=
  deliver .xor (.r rd rs1 rs2) s

/-- SRL (R226). -/
def execSrl (rd rs1 rs2 : RegIdx) (s : State) : Host.Outcome State Fault Refusal :=
  deliver .srl (.r rd rs1 rs2) s

/-- SRA (R227). -/
def execSra (rd rs1 rs2 : RegIdx) (s : State) : Host.Outcome State Fault Refusal :=
  deliver .sra (.r rd rs1 rs2) s

/-- OR (R228). -/
def execOr (rd rs1 rs2 : RegIdx) (s : State) : Host.Outcome State Fault Refusal :=
  deliver .or (.r rd rs1 rs2) s

/-- AND (R229). -/
def execAnd (rd rs1 rs2 : RegIdx) (s : State) : Host.Outcome State Fault Refusal :=
  deliver .and (.r rd rs1 rs2) s

end Sys2Proof.Machine
end

