-- ==== Sys2Proof/Machine/LoadStore.lean ====
section
/-! DEFINITION. The loads and stores (`43_loads_stores.md`): no access is performed (R41). -/

namespace Sys2Proof.Machine

/-- LB (R180). -/
def execLb (rd rs1 : RegIdx) (imm : BitVec 12) (s : State) : Host.Outcome State Fault Refusal :=
  deliver .lb (.i rd rs1 (immI imm)) s

/-- LH (R181). -/
def execLh (rd rs1 : RegIdx) (imm : BitVec 12) (s : State) : Host.Outcome State Fault Refusal :=
  deliver .lh (.i rd rs1 (immI imm)) s

/-- LW (R182). -/
def execLw (rd rs1 : RegIdx) (imm : BitVec 12) (s : State) : Host.Outcome State Fault Refusal :=
  deliver .lw (.i rd rs1 (immI imm)) s

/-- LBU (R183). -/
def execLbu (rd rs1 : RegIdx) (imm : BitVec 12) (s : State) : Host.Outcome State Fault Refusal :=
  deliver .lbu (.i rd rs1 (immI imm)) s

/-- LHU (R184). -/
def execLhu (rd rs1 : RegIdx) (imm : BitVec 12) (s : State) : Host.Outcome State Fault Refusal :=
  deliver .lhu (.i rd rs1 (immI imm)) s

/-- SB (R186). -/
def execSb (rs1 rs2 : RegIdx) (imm : BitVec 12) (s : State) : Host.Outcome State Fault Refusal :=
  deliver .sb (.s rs1 rs2 (immS imm)) s

/-- SH (R187). -/
def execSh (rs1 rs2 : RegIdx) (imm : BitVec 12) (s : State) : Host.Outcome State Fault Refusal :=
  deliver .sh (.s rs1 rs2 (immS imm)) s

/-- SW (R188). -/
def execSw (rs1 rs2 : RegIdx) (imm : BitVec 12) (s : State) : Host.Outcome State Fault Refusal :=
  deliver .sw (.s rs1 rs2 (immS imm)) s

end Sys2Proof.Machine
end

