-- ==== Sys2Proof/Machine/MultiplyDivide.lean ====
section
/-! DEFINITION. The RV32M instructions (`46_multiply_divide.md`): three fields and no arithmetic (R248). -/

namespace Sys2Proof.Machine

/-- MUL (R240). -/
def execMul (rd rs1 rs2 : RegIdx) (s : State) : Host.Outcome State Fault Refusal :=
  deliver .mul (.r rd rs1 rs2) s

/-- MULH (R241). -/
def execMulh (rd rs1 rs2 : RegIdx) (s : State) : Host.Outcome State Fault Refusal :=
  deliver .mulh (.r rd rs1 rs2) s

/-- MULHSU (R242). -/
def execMulhsu (rd rs1 rs2 : RegIdx) (s : State) : Host.Outcome State Fault Refusal :=
  deliver .mulhsu (.r rd rs1 rs2) s

/-- MULHU (R243). -/
def execMulhu (rd rs1 rs2 : RegIdx) (s : State) : Host.Outcome State Fault Refusal :=
  deliver .mulhu (.r rd rs1 rs2) s

/-- DIV (R244). -/
def execDiv (rd rs1 rs2 : RegIdx) (s : State) : Host.Outcome State Fault Refusal :=
  deliver .div (.r rd rs1 rs2) s

/-- DIVU (R245). -/
def execDivu (rd rs1 rs2 : RegIdx) (s : State) : Host.Outcome State Fault Refusal :=
  deliver .divu (.r rd rs1 rs2) s

/-- REM (R246). -/
def execRem (rd rs1 rs2 : RegIdx) (s : State) : Host.Outcome State Fault Refusal :=
  deliver .rem (.r rd rs1 rs2) s

/-- REMU (R247). -/
def execRemu (rd rs1 rs2 : RegIdx) (s : State) : Host.Outcome State Fault Refusal :=
  deliver .remu (.r rd rs1 rs2) s

end Sys2Proof.Machine
end

