-- ==== Sys2Proof/Machine/System.lean ====
section
/-! DEFINITION. ECALL, EBREAK and the CSR instructions (`48_system_csr.md`): no privilege or existence check (R27, R311). -/

namespace Sys2Proof.Machine

/-- ECALL (R270); decoded and not performed (R302). -/
def execEcall (s : State) : Host.Outcome State Fault Refusal :=
  deliver .ecall .none s

/-- EBREAK (R271); decoded and not performed (R302). -/
def execEbreak (s : State) : Host.Outcome State Fault Refusal :=
  deliver .ebreak .none s

/-- CSRRW (R272). -/
def execCsrrw (rd : RegIdx) (csr : BitVec 12) (rs1 : RegIdx) (s : State) : Host.Outcome State Fault Refusal :=
  deliver .csrrw (.csr rd csr rs1) s

/-- CSRRS (R273). -/
def execCsrrs (rd : RegIdx) (csr : BitVec 12) (rs1 : RegIdx) (s : State) : Host.Outcome State Fault Refusal :=
  deliver .csrrs (.csr rd csr rs1) s

/-- CSRRC (R274). -/
def execCsrrc (rd : RegIdx) (csr : BitVec 12) (rs1 : RegIdx) (s : State) : Host.Outcome State Fault Refusal :=
  deliver .csrrc (.csr rd csr rs1) s

/-- CSRRWI (R275). -/
def execCsrrwi (rd : RegIdx) (csr : BitVec 12) (zimm : BitVec 5) (s : State) : Host.Outcome State Fault Refusal :=
  deliver .csrrwi (.csri rd csr zimm) s

/-- CSRRSI (R276). -/
def execCsrrsi (rd : RegIdx) (csr : BitVec 12) (zimm : BitVec 5) (s : State) : Host.Outcome State Fault Refusal :=
  deliver .csrrsi (.csri rd csr zimm) s

/-- CSRRCI (R277). -/
def execCsrrci (rd : RegIdx) (csr : BitVec 12) (zimm : BitVec 5) (s : State) : Host.Outcome State Fault Refusal :=
  deliver .csrrci (.csri rd csr zimm) s

end Sys2Proof.Machine
end

