-- ==== Sys2Proof/Machine/Unknown.lean ====
section
/-! DEFINITION. UNKNOWN, every word that no row matches (R99). -/

namespace Sys2Proof.Machine

/-- UNKNOWN (R99): an ordinary output, with a line like every other word (R301, R345). -/
def execUnknown (s : State) : Host.Outcome State Fault Refusal :=
  deliver .unknown .unknown s

end Sys2Proof.Machine
end

