-- ==== Sys2Proof/Machine/UpperImmediate.lean ====
section
/-! DEFINITION. LUI and AUIPC (`41_upper_immediate.md`). -/

namespace Sys2Proof.Machine

/-- LUI (R150). -/
def execLui (rd : RegIdx) (imm : BitVec 20) (s : State) : Host.Outcome State Fault Refusal :=
  deliver .lui (.u rd (immU s.params.immMode imm)) s

/-- AUIPC (R151). -/
def execAuipc (rd : RegIdx) (imm : BitVec 20) (s : State) : Host.Outcome State Fault Refusal :=
  deliver .auipc (.u rd (immU s.params.immMode imm)) s

end Sys2Proof.Machine
end

