-- ==== Sys2Proof/Machine/Step.lean ====
section
/-! DEFINITION. One step of the pass: the host feeds the next word, the block decodes it, the host writes its line
(R346, R351). A decode takes no time and is one atomic step (R327). -/

namespace Sys2Proof.Machine

/-- One step. A host that halted on a malformed object feeds nothing (R349). While a word is left it is put on
`insn_i` and decoded; after the last word the pass is complete and nothing changes any more (log entry 4). -/
def step (s : State) : Host.Outcome State Fault Refusal :=
  match s.defect with
  | some d => .refused (.objectRejected d)
  | none =>
    if s.index < s.nWords then
      match s.nextWord with
      | some w => exec (decodeWord w) (s.present w)
      | none => .fault .codeByteAbsent
    else .next s

/-- The state with a table word where `step` feeds from next (log entry 3). -/
def State.withFetchWord (s : State) (nbits w : Nat) : State :=
  s.placeWord (BitVec.ofNat 32 (w % 2 ^ nbits))

end Sys2Proof.Machine
end

