-- ==== Sys2Proof/Machine/Exhibit.lean ====
section
/-! DEFINITION. The pseudocode exhibit of R102, transcribed line by line on the integers of R15 and R16. It is the
whole block as one function of the word and the mode (R20); `exec` never calls it, and statements compare the two. -/

namespace Sys2Proof.Machine

/-- `w[hi:lo]` as a natural number (R15), by the quotient and remainder of R72. -/
def bits (w : Word) (hi lo : Nat) : Nat :=
  w.toNat / 2 ^ lo % 2 ^ (hi - lo + 1)

/-- `immS` of the exhibit. -/
def exhibitImmS (w : Word) : Nat :=
  (bits w 31 25 <<< 5) ||| bits w 11 7

/-- `immB` of the exhibit. -/
def exhibitImmB (w : Word) : Nat :=
  (bits w 31 31 <<< 12) ||| (bits w 7 7 <<< 11) ||| (bits w 30 25 <<< 5) ||| (bits w 11 8 <<< 1)

/-- `immJ` of the exhibit. -/
def exhibitImmJ (w : Word) : Nat :=
  (bits w 31 31 <<< 20) ||| (bits w 19 12 <<< 12) ||| (bits w 20 20 <<< 11) ||| (bits w 30 21 <<< 1)

/-- `decode(w, mode)` (R102): the kind with its operands. A funct3 or funct7 that a branch lists no kind for falls
through to UNKNOWN. -/
def exhibit (w : Word) (mode : ImmMode) : Kind × Operands :=
  let op := bits w 6 0
  let f3 := bits w 14 12
  let f7 := bits w 31 25
  let fm := bits w 31 28
  let lo20 := bits w 19 0
  let rd : RegIdx := BitVec.ofNat 5 (bits w 11 7)
  let rs1 : RegIdx := BitVec.ofNat 5 (bits w 19 15)
  let rs2 : RegIdx := BitVec.ofNat 5 (bits w 24 20)
  let shamt : BitVec 5 := BitVec.ofNat 5 (bits w 24 20)
  let zimm : BitVec 5 := BitVec.ofNat 5 (bits w 19 15)
  let csr : BitVec 12 := BitVec.ofNat 12 (bits w 31 20)
  let immI := bits w 31 20
  let sI := signExtend immI 11
  let sS := signExtend (exhibitImmS w) 11
  let sB := signExtend (exhibitImmB w) (if mode = .compat then 11 else 12)
  let sU := signExtend (bits w 31 12) (if mode = .compat then 11 else 19)
  let sJ := signExtend (exhibitImmJ w) (if mode = .compat then 11 else 20)
  let uSLTIU : Int := if mode = .compat then (immI : Int) else sI
  if w.toNat = 0x00000073 then (.ecall, .none)
  else if w.toNat = 0x00100073 then (.ebreak, .none)
  else if w.toNat = 0x0000100F then (.fencei, .none)
  else if fm = 0 ∧ lo20 = 0x0000F then
    (.fence, .fence (BitVec.ofNat 4 (bits w 27 24)) (BitVec.ofNat 4 (bits w 23 20)))
  else if op = 0b0110111 then (.lui, .u rd sU)
  else if op = 0b0010111 then (.auipc, .u rd sU)
  else if op = 0b1101111 then (.jal, .j rd sJ)
  else if op = 0b1100111 then (.jalr, .i rd rs1 sI)
  else if op = 0b1100011 then
    match f3 with
    | 0b000 => (.beq, .b rs1 rs2 sB)
    | 0b001 => (.bne, .b rs1 rs2 sB)
    | 0b100 => (.blt, .b rs1 rs2 sB)
    | 0b101 => (.bge, .b rs1 rs2 sB)
    | 0b110 => (.bltu, .b rs1 rs2 sB)
    | 0b111 => (.bgeu, .b rs1 rs2 sB)
    | _ => (.unknown, .unknown)
  else if op = 0b0000011 then
    match f3 with
    | 0b000 => (.lb, .i rd rs1 sI)
    | 0b001 => (.lh, .i rd rs1 sI)
    | 0b010 => (.lw, .i rd rs1 sI)
    | 0b100 => (.lbu, .i rd rs1 sI)
    | 0b101 => (.lhu, .i rd rs1 sI)
    | _ => (.unknown, .unknown)
  else if op = 0b0100011 then
    match f3 with
    | 0b000 => (.sb, .s rs1 rs2 sS)
    | 0b001 => (.sh, .s rs1 rs2 sS)
    | 0b010 => (.sw, .s rs1 rs2 sS)
    | _ => (.unknown, .unknown)
  else if op = 0b0010011 then
    match f3 with
    | 0b000 => (.addi, .i rd rs1 sI)
    | 0b010 => (.slti, .i rd rs1 sI)
    | 0b100 => (.xori, .i rd rs1 sI)
    | 0b110 => (.ori, .i rd rs1 sI)
    | 0b111 => (.andi, .i rd rs1 sI)
    | 0b011 => (.sltiu, .i rd rs1 uSLTIU)
    | 0b001 => if f7 = 0b0000000 then (.slli, .shift rd rs1 shamt) else (.unknown, .unknown)
    | 0b101 =>
      if f7 = 0b0000000 then (.srli, .shift rd rs1 shamt)
      else if f7 = 0b0100000 then (.srai, .shift rd rs1 shamt)
      else (.unknown, .unknown)
    | _ => (.unknown, .unknown)
  else if op = 0b0110011 then
    if f7 = 0b0000000 then
      match f3 with
      | 0b000 => (.add, .r rd rs1 rs2)
      | 0b001 => (.sll, .r rd rs1 rs2)
      | 0b010 => (.slt, .r rd rs1 rs2)
      | 0b011 => (.sltu, .r rd rs1 rs2)
      | 0b100 => (.xor, .r rd rs1 rs2)
      | 0b101 => (.srl, .r rd rs1 rs2)
      | 0b110 => (.or, .r rd rs1 rs2)
      | 0b111 => (.and, .r rd rs1 rs2)
      | _ => (.unknown, .unknown)
    else if f7 = 0b0100000 then
      match f3 with
      | 0b000 => (.sub, .r rd rs1 rs2)
      | 0b101 => (.sra, .r rd rs1 rs2)
      | _ => (.unknown, .unknown)
    else if f7 = 0b0000001 then
      match f3 with
      | 0b000 => (.mul, .r rd rs1 rs2)
      | 0b001 => (.mulh, .r rd rs1 rs2)
      | 0b010 => (.mulhsu, .r rd rs1 rs2)
      | 0b011 => (.mulhu, .r rd rs1 rs2)
      | 0b100 => (.div, .r rd rs1 rs2)
      | 0b101 => (.divu, .r rd rs1 rs2)
      | 0b110 => (.rem, .r rd rs1 rs2)
      | 0b111 => (.remu, .r rd rs1 rs2)
      | _ => (.unknown, .unknown)
    else (.unknown, .unknown)
  else if op = 0b1110011 then
    match f3 with
    | 0b001 => (.csrrw, .csr rd csr rs1)
    | 0b010 => (.csrrs, .csr rd csr rs1)
    | 0b011 => (.csrrc, .csr rd csr rs1)
    | 0b101 => (.csrrwi, .csri rd csr zimm)
    | 0b110 => (.csrrsi, .csri rd csr zimm)
    | 0b111 => (.csrrci, .csri rd csr zimm)
    | _ => (.unknown, .unknown)
  else (.unknown, .unknown)

end Sys2Proof.Machine
end

