-- ==== Sys2Proof/WellFormed.lean ====
section
/-! DEFINITION. Which terms of `Instr` a word can stand for: bit 0 of a branch or jump offset is not encoded and
is 0 (R65, R67). Every other field is a field of the word, at every value of its width. -/

namespace Sys2Proof

/-- Bit 0 of an assembled branch or jump immediate is 0 (R65, R67, R78, R80). -/
def evenBits {n : Nat} (imm : BitVec n) : Bool :=
  !imm.getLsbD 0

/-- The check of one instruction. -/
def Instr.wf : Instr → Bool
  | .jal _ imm => evenBits imm
  | .beq _ _ imm | .bne _ _ imm | .blt _ _ imm | .bge _ _ imm | .bltu _ _ imm | .bgeu _ _ imm => evenBits imm
  | .lui _ _ | .auipc _ _ | .jalr _ _ _ => true
  | .lb _ _ _ | .lh _ _ _ | .lw _ _ _ | .lbu _ _ _ | .lhu _ _ _ | .sb _ _ _ | .sh _ _ _ | .sw _ _ _ => true
  | .addi _ _ _ | .slti _ _ _ | .sltiu _ _ _ | .xori _ _ _ | .ori _ _ _ | .andi _ _ _ => true
  | .slli _ _ _ | .srli _ _ _ | .srai _ _ _ => true
  | .add _ _ _ | .sub _ _ _ | .sll _ _ _ | .slt _ _ _ | .sltu _ _ _ => true
  | .xor _ _ _ | .srl _ _ _ | .sra _ _ _ | .or _ _ _ | .and _ _ _ => true
  | .mul _ _ _ | .mulh _ _ _ | .mulhsu _ _ _ | .mulhu _ _ _ => true
  | .div _ _ _ | .divu _ _ _ | .rem _ _ _ | .remu _ _ _ => true
  | .fence _ _ | .fencei | .ecall | .ebreak => true
  | .csrrw _ _ _ | .csrrs _ _ _ | .csrrc _ _ _ | .csrrwi _ _ _ | .csrrsi _ _ _ | .csrrci _ _ _ => true
  | .unknown => true

/-- An instruction that some word decodes to. -/
abbrev WellFormed (i : Instr) : Prop := i.wf = true

end Sys2Proof
end

