-- ==== Sys2Proof/Safety.lean ====
section
/-! DEFINITION. The terms claims are stated in: the block as one function of the word and the mode, the effect every
instruction has with its frame, the invariant of a pass, and what a safe run is. -/

namespace Sys2Proof.Machine

/-! ## The block as a function (R20, R102) -/

/-- `decode(insn_i, IMM_MODE)` on the ports, from the exhibit of R102. -/
def blockDecode (m : ImmMode) (w : Word) : Outputs :=
  outputs (exhibit w m).1 (exhibit w m).2

/-- The line of word `index` holding `w`, from the exhibit of R102 and the shapes of R344 and R345. -/
def listingLine (p : Params) (base : Word) (symbols : List SymbolEntry) (index : Nat) (w : Word) : Text :=
  lineHead p base symbols index ++ lineTail (exhibit w p.immMode).1 (exhibit w p.immMode).2

/-- The immediate a record carries, if its format has one (R23). -/
def immediateOf : Operands → Option Int
  | .i _ _ imm | .s _ _ imm | .b _ _ imm | .u _ imm | .j _ imm => some imm
  | .r .. | .shift .. | .fence .. | .csr .. | .csri .. | .none | .unknown => none

/-- The same state with the block elaborated in the other mode. -/
def State.inMode (s : State) (m : ImmMode) : State :=
  { s with params := { s.params with immMode := m } }

/-! ## Effect and frame -/

/-- What no instruction changes: the parameters (R322), the word on the input, every byte of the code buffer (R50),
the base, the symbol table and the loader's verdict. -/
def SameHost (s t : State) : Prop :=
  t.params = s.params ∧ t.insn = s.insn ∧ (∀ a, Memory.read t.mem a = Memory.read s.mem a) ∧
    t.nWords = s.nWords ∧ t.base = s.base ∧ t.symbols = s.symbols ∧ t.defect = s.defect

/-- The instruction completes: the ports carry `o`, one line is added that ends in `tail` after the head of this
position, the host is at the next word, and nothing else has changed. -/
def Delivers (s : State) (i : Instr) (o : Outputs) (tail : Text) : Prop :=
  ∃ t, exec i s = .next t ∧ t.out = o ∧
    t.sink = s.sink ++ [lineHead s.params s.base s.symbols s.index ++ tail] ∧ t.index = s.index + 1 ∧ SameHost s t

/-- The tail of a line with operands (R344). -/
def operandTail (name : String) (operands : Text) : Text :=
  ascii "\t\t" ++ ascii name ++ ascii "\t" ++ operands ++ ascii "\n"

/-- The state's next step feeds the word `w`. -/
def Feeds (s : State) (w : Word) : Prop :=
  s.defect = none ∧ s.index < s.nWords ∧ s.nextWord = some w

/-! ## The invariant of a pass -/

/-- Every word that was handed over is in the code buffer whole (R324). -/
def CodeLoaded (s : State) : Prop :=
  ∀ k, k < s.nWords → (Memory.readWord s.mem k).isSome = true

/-- One line for each word fed so far, in input order, each the line of its own word (R346). -/
def ListingSoFar (s : State) : Prop :=
  s.sink.length = s.index ∧
    ∀ k, k < s.index → ∃ w, Memory.readWord s.mem k = some w ∧
      s.sink[k]? = some (listingLine s.params s.base s.symbols k w)

/-- Once a word has been fed, the ports are the decode of the word on the input (R321, R323). -/
def PortsFollowInput (s : State) : Prop :=
  0 < s.index → s.out = blockDecode s.params.immMode s.insn

/-- The word on the input is the last one fed. -/
def InputIsLastFed (s : State) : Prop :=
  0 < s.index → Memory.readWord s.mem (s.index - 1) = some s.insn

/-- The invariant every step keeps. -/
def Inv (s : State) : Prop :=
  Memory.wf s.mem ∧ CodeLoaded s ∧ s.index ≤ s.nWords ∧ ListingSoFar s ∧ PortsFollowInput s ∧ InputIsLastFed s

/-- A safe machine: the loader accepted the object and the code buffer is whole, so no step stops (R351). -/
def Safe (s : State) : Prop :=
  s.defect = none ∧ CodeLoaded s

/-! ## Reading text back -/

/-- The value of a decimal digit character, 10 or more for any other byte. -/
def decimalDigit (c : Byte) : Nat :=
  if c.toNat < 0x30 then 10 else c.toNat - 0x30

/-- A sequence of decimal digits read as a number. -/
def readDecimal (t : Text) : Nat :=
  t.foldl (fun n c => 10 * n + decimalDigit c) 0

/-- The value of a hexadecimal digit character in the given case, 16 or more for any other byte. -/
def hexValue (c : HexCase) (b : Byte) : Nat :=
  let n := b.toNat
  if 0x30 ≤ n ∧ n ≤ 0x39 then n - 0x30
  else match c with
    | .lower => if 0x61 ≤ n ∧ n ≤ 0x66 then n - 0x57 else 16
    | .upper => if 0x41 ≤ n ∧ n ≤ 0x46 then n - 0x37 else 16

/-- A sequence of hexadecimal digits read as a number. -/
def readHex (c : HexCase) (t : Text) : Nat :=
  t.foldl (fun n b => 16 * n + hexValue c b) 0

end Sys2Proof.Machine
end

