-- ==== Sys2Proof/Certificates/Slice0/Obligations.lean ====
section
/-! DEFINITION. The statements for the provers. `w.extractLsb' lo n` is `w[lo+n-1:lo]` of the spec as bits and
`bits w hi lo` is `w[hi:lo]` as a number. -/

open Sys2Proof Sys2Proof.Machine

/-! ## The two primitives -/

/-- R72: the BitfieldExtractor is a quotient and a remainder; the whole word and a single bit come out as they are. -/
def Obligations.ExtractIsQuotientAndRemainder : Prop :=
  ∀ w : Word,
    (∀ hi lo, lo ≤ hi → hi ≤ 31 → (extract w hi lo).toNat = w.toNat / 2 ^ lo % 2 ^ (hi - lo + 1)) ∧
    (extract w 31 0).toNat = w.toNat ∧
    ∀ b, b ≤ 31 → (extract w b b).toNat = (w.getLsbD b).toNat

/-- The SignExtender is the formula of R73; its result lies in `[-2^s, 2^s)`; on `value < 2^(s+1)` it is the ordinary
two's-complement extension, with the round trip; every bit above `s` is discarded. All but the formula are
consequences that R73 marks as the spec's own derivation. -/
def Obligations.SignExtenderIdentity : Prop :=
  ∀ value s : Nat,
    signExtend value s = -((value &&& (1 <<< s) : Nat) : Int) + ((value &&& ((1 <<< s) - 1) : Nat) : Int) ∧
    -(2 ^ s : Int) ≤ signExtend value s ∧ signExtend value s < 2 ^ s ∧
    (value < 2 ^ (s + 1) → value.testBit s = false → signExtend value s = value) ∧
    (value < 2 ^ (s + 1) → value.testBit s = true →
      signExtend value s < 0 ∧ signExtend value s % (2 ^ (s + 1) : Int) = value) ∧
    signExtend value s = signExtend (value % 2 ^ (s + 1)) s

/-! ## The immediates -/

/-- The signed I immediate and the S immediate are the 12-bit field in two's complement, in both modes, on the 32-bit
port (R75, R77; that a JALR word is one whatever its funct3 is the spec's own decision, D4; log entry 11). -/
def Obligations.IAndSImmediatesAreSignedTwelveBits : Prop :=
  ∀ (s : State) (w : Word),
    (∀ k ∈ [Kind.jalr, .lb, .lh, .lw, .lbu, .lhu, .addi, .slti, .xori, .ori, .andi],
      w &&& tableMask k = tableMatch k →
      ∃ t, exec (decodeWord w) s = .next t ∧ t.out.imm_o = BitVec.ofInt 32 (signExtend (bits w 31 20) 11) ∧
        t.out.imm_o.toInt = (bits w 30 20 : Int) - 2048 * (bits w 31 31 : Int) ∧
        -2048 ≤ t.out.imm_o.toInt ∧ t.out.imm_o.toInt ≤ 2047) ∧
    (∀ k ∈ [Kind.sb, .sh, .sw], w &&& tableMask k = tableMatch k →
      ∃ t, exec (decodeWord w) s = .next t ∧
        t.out.imm_o = BitVec.ofInt 32 (signExtend ((bits w 31 25 <<< 5) ||| bits w 11 7) 11) ∧
        t.out.imm_o.toInt = (32 * bits w 30 25 + bits w 11 7 : Int) - 2048 * (bits w 31 31 : Int) ∧
        -2048 ≤ t.out.imm_o.toInt ∧ t.out.imm_o.toInt ≤ 2047)

/-- SLTIU's immediate is unsigned in COMPAT and signed in ARCH; the two differ exactly when `w[31] = 1`, by 4096 (R76;
the ARCH value is the spec's own decision, D2 of `92_eei_decisions.md`; log entry 10). -/
def Obligations.SltiuImmediateByMode : Prop :=
  ∀ (s : State) (w : Word), w &&& 0x0000707F#32 = 0x00003013#32 →
    ∃ c a, exec (decodeWord w) (s.inMode .compat) = .next c ∧ exec (decodeWord w) (s.inMode .arch) = .next a ∧
      c.out.imm_o.toInt = (bits w 31 20 : Int) ∧ c.out.imm_o.toInt ≤ 4095 ∧
      a.out.imm_o = BitVec.ofInt 32 (signExtend (bits w 31 20) 11) ∧
      -2048 ≤ a.out.imm_o.toInt ∧ a.out.imm_o.toInt ≤ 2047 ∧
      (c.out.imm_o ≠ a.out.imm_o ↔ bits w 31 31 = 1) ∧
      (bits w 31 31 = 1 → c.out.imm_o.toInt - a.out.imm_o.toInt = 4096)

/-- The B immediate of every branch in the two modes: an even number, signed by `w[7]` in COMPAT, where `w[31]` is
ignored, and by `w[31]` in ARCH; the two are equal exactly when `w[31] = w[7]` (R78; bit 12 as the ARCH sign is the
spec's own decision, D1; log entry 10). -/
def Obligations.BranchImmediateByMode : Prop :=
  ∀ (s : State) (w : Word), ∀ k ∈ [Kind.beq, .bne, .blt, .bge, .bltu, .bgeu], w &&& tableMask k = tableMatch k →
    ∃ c a, exec (decodeWord w) (s.inMode .compat) = .next c ∧ exec (decodeWord w) (s.inMode .arch) = .next a ∧
      c.out.imm_o = BitVec.ofInt 32 (signExtend (exhibitImmB w) 11) ∧
      c.out.imm_o.toInt = (32 * bits w 30 25 + 2 * bits w 11 8 : Int) - 2048 * (bits w 7 7 : Int) ∧
      c.out.imm_o.toInt % 2 = 0 ∧ -2048 ≤ c.out.imm_o.toInt ∧ c.out.imm_o.toInt ≤ 2046 ∧
      a.out.imm_o = BitVec.ofInt 32 (signExtend (exhibitImmB w) 12) ∧
      a.out.imm_o.toInt =
        (2048 * bits w 7 7 + 32 * bits w 30 25 + 2 * bits w 11 8 : Int) - 4096 * (bits w 31 31 : Int) ∧
      a.out.imm_o.toInt % 2 = 0 ∧ -4096 ≤ a.out.imm_o.toInt ∧ a.out.imm_o.toInt ≤ 4094 ∧
      (c.out.imm_o = a.out.imm_o ↔ bits w 31 31 = bits w 7 7)

/-- The U immediate of LUI and AUIPC in the two modes: COMPAT reads `w[22:12]` and the sign `w[23]` and ignores
`w[31:24]`; ARCH reads the whole field; they are equal exactly when `w[31:23]` is all zeros or all ones (R79; bit 19 as
the ARCH extension point is the spec's own decision, D1; log entry 10). -/
def Obligations.UpperImmediateByMode : Prop :=
  ∀ (s : State) (w : Word), ∀ k ∈ [Kind.lui, .auipc], w &&& tableMask k = tableMatch k →
    ∃ c a, exec (decodeWord w) (s.inMode .compat) = .next c ∧ exec (decodeWord w) (s.inMode .arch) = .next a ∧
      c.out.imm_o = BitVec.ofInt 32 (signExtend (bits w 31 12) 11) ∧
      c.out.imm_o.toInt = (bits w 22 12 : Int) - 2048 * (bits w 23 23 : Int) ∧
      -2048 ≤ c.out.imm_o.toInt ∧ c.out.imm_o.toInt ≤ 2047 ∧
      a.out.imm_o = BitVec.ofInt 32 (signExtend (bits w 31 12) 19) ∧
      a.out.imm_o.toInt = (bits w 30 12 : Int) - 524288 * (bits w 31 31 : Int) ∧
      -524288 ≤ a.out.imm_o.toInt ∧ a.out.imm_o.toInt ≤ 524287 ∧
      (c.out.imm_o = a.out.imm_o ↔ bits w 31 23 = 0 ∨ bits w 31 23 = 511)

/-- The J immediate of JAL in the two modes: an even number; COMPAT reads `w[30:21]` and the sign `w[20]` and ignores
`w[31]` and `w[19:12]`; ARCH is signed by `w[31]`; they are equal exactly when `w[31]`, `w[19:12]` and `w[20]` are all
equal to one bit value (R80; bit 20 as the ARCH extension point is the spec's own decision, D1; log entry 10). -/
def Obligations.JumpImmediateByMode : Prop :=
  ∀ (s : State) (w : Word), w &&& 0x0000007F#32 = 0x0000006F#32 →
    ∃ c a, exec (decodeWord w) (s.inMode .compat) = .next c ∧ exec (decodeWord w) (s.inMode .arch) = .next a ∧
      c.out.imm_o = BitVec.ofInt 32 (signExtend (exhibitImmJ w) 11) ∧
      c.out.imm_o.toInt = (2 * bits w 30 21 : Int) - 2048 * (bits w 20 20 : Int) ∧
      c.out.imm_o.toInt % 2 = 0 ∧ -2048 ≤ c.out.imm_o.toInt ∧ c.out.imm_o.toInt ≤ 2046 ∧
      a.out.imm_o = BitVec.ofInt 32 (signExtend (exhibitImmJ w) 20) ∧
      a.out.imm_o.toInt =
        (4096 * bits w 19 12 + 2048 * bits w 20 20 + 2 * bits w 30 21 : Int) - 1048576 * (bits w 31 31 : Int) ∧
      a.out.imm_o.toInt % 2 = 0 ∧ -1048576 ≤ a.out.imm_o.toInt ∧ a.out.imm_o.toInt ≤ 1048574 ∧
      (c.out.imm_o = a.out.imm_o ↔
        (bits w 31 31 = 0 ∧ bits w 19 12 = 0 ∧ bits w 20 20 = 0) ∨
        (bits w 31 31 = 1 ∧ bits w 19 12 = 255 ∧ bits w 20 20 = 1))

/-- The shift amount of every shift is `w[24:20]` in both modes; passing it through the SignExtender at bit 11, as the
source does for SRAI, changes nothing (R81, which marks this as the spec's derivation). -/
def Obligations.ShiftAmountIsFiveBitField : Prop :=
  ∀ (s : State) (w : Word), ∀ k ∈ [Kind.slli, .srli, .srai], w &&& tableMask k = tableMatch k →
    signExtend (bits w 24 20) 11 = bits w 24 20 ∧
    ∃ c a, exec (decodeWord w) (s.inMode .compat) = .next c ∧ exec (decodeWord w) (s.inMode .arch) = .next a ∧
      c.out.shamt_o.toNat = bits w 24 20 ∧ a.out.shamt_o.toNat = bits w 24 20 ∧ bits w 24 20 ≤ 31

/-- Every immediate the block produces lies in `[-2^20, 2^20)`, and the 32-bit port holds it exactly (R74, which marks
this as the spec's derivation; the values are the exhibit's, which holds the spec's own decisions D1 and D2, log entry
10, D3 and D4, log entry 11). -/
def Obligations.EveryImmediateFitsThePort : Prop :=
  ∀ (s : State) (w : Word), ∃ t, exec (decodeWord w) s = .next t ∧
    ∀ v, immediateOf (exhibit w s.params.immMode).2 = some v →
      -(2 ^ 20) ≤ v ∧ v < 2 ^ 20 ∧ t.out.imm_o.toInt = v

/-- The mode changes only the immediate, and only that of SLTIU, the branches, LUI, AUIPC and JAL; every other output
of every word is the same in both modes, the kind among them (R85, which marks this as the spec's derivation; the ARCH
values it rests on are the spec's own decisions D1 and D2; log entry 10). -/
def Obligations.ModesDifferOnlyInFourImmediates : Prop :=
  ∀ (s : State) (w : Word),
    ∃ c a, exec (decodeWord w) (s.inMode .compat) = .next c ∧ exec (decodeWord w) (s.inMode .arch) = .next a ∧
      { c.out with imm_o := 0 } = { a.out with imm_o := 0 } ∧
      ((∀ k ∈ [Kind.sltiu, .beq, .bne, .blt, .bge, .bltu, .bgeu, .lui, .auipc, .jal],
        w &&& tableMask k ≠ tableMatch k) → c.out = a.out)

/-! ## The classifier -/

/-- The classifier gives an instruction's kind exactly on the words its row of the opcode table matches, and UNKNOWN
exactly on the words no row matches (R99, R101 and the rows of `opcode_table.json`; the rows of FENCE and JALR are the
spec's own decisions, D3 and D4; log entry 11; that `0x02058533` is MUL, as its row says, is log entry 21). -/
def Obligations.ClassifierMatchesOpcodeTable : Prop :=
  ∀ w : Word,
    (∀ k, k ≠ Kind.unknown → (classify w = k ↔ w &&& tableMask k = tableMatch k)) ∧
    (classify w = .unknown ↔ ∀ k, k ≠ Kind.unknown → w &&& tableMask k ≠ tableMatch k) ∧
    (decodeWord w).kind = classify w

/-- No word matches two rows of the opcode table, so the order of the checks is not observable (R100, which marks this
as the spec's derivation; the rows of FENCE and JALR are the spec's own decisions, D3 and D4; log entry 11). -/
def Obligations.NoWordMatchesTwoRows : Prop :=
  ∀ (w : Word) (k l : Kind), k ≠ .unknown → l ≠ .unknown →
    w &&& tableMask k = tableMatch k → w &&& tableMask l = tableMatch l → k = l

/-- R90: ECALL, EBREAK and FENCE.I are whole-word equalities. -/
def Obligations.WholeWordMatches : Prop :=
  ∀ w : Word,
    (decodeWord w = .ecall ↔ w = 0x00000073#32) ∧
    (decodeWord w = .ebreak ↔ w = 0x00100073#32) ∧
    (decodeWord w = .fencei ↔ w = 0x0000100F#32)

/-- LUI, AUIPC, JAL and JALR are matched on the opcode alone; JALR whatever its funct3 is (R92; the spec's own
decision D4, since the source gives JALR no funct3, N5; log entry 11). -/
def Obligations.OpcodeAloneMatches : Prop :=
  ∀ w : Word,
    (classify w = .lui ↔ bits w 6 0 = 0b0110111) ∧
    (classify w = .auipc ↔ bits w 6 0 = 0b0010111) ∧
    (classify w = .jal ↔ bits w 6 0 = 0b1101111) ∧
    (classify w = .jalr ↔ bits w 6 0 = 0b1100111)

/-- The complete UNKNOWN space, as R115 lists it and marks it as the spec's derivation; its MISC-MEM line rests on the
FENCE pattern the spec decided (D3, log entry 11). -/
def Obligations.UnknownSpace : Prop :=
  ∀ w : Word, decodeWord w = .unknown ↔
    (bits w 6 0 ∉ [0b0110111, 0b0010111, 0b1101111, 0b1100111, 0b1100011, 0b0000011, 0b0100011, 0b0010011,
      0b0110011, 0b0001111, 0b1110011]) ∨
    (bits w 6 0 = 0b0001111 ∧ w ≠ 0x0000100F#32 ∧ ¬(bits w 31 28 = 0 ∧ bits w 19 0 = 0x0000F)) ∨
    (bits w 6 0 = 0b1100011 ∧ bits w 14 12 ∈ [0b010, 0b011]) ∨
    (bits w 6 0 = 0b0000011 ∧ bits w 14 12 ∈ [0b011, 0b110, 0b111]) ∨
    (bits w 6 0 = 0b0100011 ∧ bits w 14 12 ∈ [0b011, 0b100, 0b101, 0b110, 0b111]) ∨
    (bits w 6 0 = 0b0010011 ∧
      ((bits w 14 12 = 0b001 ∧ bits w 31 25 ≠ 0b0000000) ∨
       (bits w 14 12 = 0b101 ∧ bits w 31 25 ∉ [0b0000000, 0b0100000]))) ∨
    (bits w 6 0 = 0b0110011 ∧
      (bits w 31 25 ∉ [0b0000000, 0b0100000, 0b0000001] ∨
       (bits w 31 25 = 0b0100000 ∧ bits w 14 12 ∉ [0b000, 0b101]))) ∨
    (bits w 6 0 = 0b1110011 ∧
      (bits w 14 12 = 0b100 ∨ (bits w 14 12 = 0b000 ∧ w ≠ 0x00000073#32 ∧ w ≠ 0x00100073#32)))

/-! ## Decoding and encoding -/

/-- Sanity: words of the spec's vectors, at least one for each family and each format, decode to the instruction they
stand for. -/
def Obligations.VectorWordsDecode : Prop :=
  decodeWord 0x12345537#32 = .lui 10 0x12345 ∧ decodeWord 0xFFDFF06F#32 = .jal 0 0x1FFFFC ∧
  decodeWord 0xFF8280E7#32 = .jalr 1 5 0xFF8 ∧
  decodeWord 0xFE051CE3#32 = .bne 10 0 0x1FF8 ∧ decodeWord 0x7FF5C503#32 = .lbu 10 11 0x7FF ∧
  decodeWord 0xFEA10FA3#32 = .sb 2 10 0xFFF ∧ decodeWord 0x41F5D513#32 = .srai 10 11 31 ∧
  decodeWord 0x40C58533#32 = .sub 10 11 12 ∧ decodeWord 0x02C5E533#32 = .rem 10 11 12 ∧
  decodeWord 0x0030000F#32 = .fence 0 3 ∧ decodeWord 0x00000073#32 = .ecall ∧
  decodeWord 0x30029073#32 = .csrrw 0 768 5 ∧ decodeWord 0xFFFFFFF3#32 = .csrrci 31 4095 31 ∧
  decodeWord 0x30200073#32 = .unknown

/-- Decoding the word of a well-formed instruction gives the instruction back, every operand at every value. -/
def Obligations.DecodeOfEncodeIsIdentity : Prop :=
  ∀ i : Instr, WellFormed i → decodeWord (encode i) = i

/-- Encoding a decoded word gives the word back: no bit of a word is dropped, but for the funct3 of JALR, which the
decoder ignores (R92), and for the words of UNKNOWN, which has no operand (R99). -/
def Obligations.EncodeOfDecodeIsIdentity : Prop :=
  ∀ w : Word, decodeWord w ≠ .unknown → (bits w 6 0 = 0b1100111 → bits w 14 12 = 0b000) → encode (decodeWord w) = w

/-- A step assembles the word it feeds little-endian from the four bytes at its place in the code section (R42; the
byte order is the spec's own decision, D8; log entry 12). -/
def Obligations.WordIsFedLittleEndian : Prop :=
  ∀ (s : State) (b0 b1 b2 b3 : Byte), s.defect = none → s.index < s.nWords →
    Memory.read s.mem (4 * s.index) = some b0 → Memory.read s.mem (4 * s.index + 1) = some b1 →
    Memory.read s.mem (4 * s.index + 2) = some b2 → Memory.read s.mem (4 * s.index + 3) = some b3 →
    ∃ t, step s = .next t ∧ t.insn.toNat = b0.toNat + 256 * b1.toNat + 65536 * b2.toNat + 16777216 * b3.toNat ∧
      t.insn.extractLsb' 0 8 = b0 ∧ t.insn.extractLsb' 24 8 = b3 ∧
      ∀ rest, decodeBytes (b0 :: b1 :: b2 :: b3 :: rest) = .ok (decodeWord t.insn, rest)

/-! ## The results of the instructions, family by family -/

/-- LUI and AUIPC (R150, R151; the 0 on every port the format does not use is the spec's own decision D7, log entry 9;
the ARCH extension point is D1, log entry 10). -/
def Obligations.UpperImmediateWords : Prop :=
  ∀ (s : State) (w : Word),
    ∀ row ∈ ([(0x00000037#32, 1#6, "lui", Instr.lui), (0x00000017#32, 2#6, "auipc", Instr.auipc)] :
      List (Word × BitVec 6 × String × (RegIdx → BitVec 20 → Instr))),
    w &&& 0x0000007F#32 = row.1 →
    let rd := w.extractLsb' 7 5
    let imm := signExtend (bits w 31 12) (match s.params.immMode with | .compat => 11 | .arch => 19)
    let i := row.2.2.2 rd (w.extractLsb' 12 20)
    decodeWord w = i ∧
    Delivers s i { kind_o := row.2.1, fmt_o := 5, rd_o := rd, imm_o := BitVec.ofInt 32 imm }
      (operandTail row.2.2.1 (regName rd ++ ascii ", " ++ decimal imm))

/-- JAL (R160; the 0 on every port the format does not use is the spec's own decision D7, log entry 9; the ARCH
extension point is D1, log entry 10). -/
def Obligations.JalWords : Prop :=
  ∀ (s : State) (w : Word), w &&& 0x0000007F#32 = 0x0000006F#32 →
    let rd := w.extractLsb' 7 5
    let immJ := (bits w 31 31 <<< 20) ||| (bits w 19 12 <<< 12) ||| (bits w 20 20 <<< 11) ||| (bits w 30 21 <<< 1)
    let imm := signExtend immJ (match s.params.immMode with | .compat => 11 | .arch => 20)
    let i := Instr.jal rd (BitVec.ofNat 21 immJ)
    decodeWord w = i ∧
    Delivers s i { kind_o := 3, fmt_o := 6, rd_o := rd, imm_o := BitVec.ofInt 32 imm }
      (operandTail "jal" (regName rd ++ ascii ", " ++ decimal imm))

/-- JALR, whatever its funct3 is (R161; the match on the opcode alone is the spec's own decision D4, log entry 11; the
0 on every port the format does not use is the spec's own decision D7, log entry 9). -/
def Obligations.JalrWords : Prop :=
  ∀ (s : State) (w : Word), w &&& 0x0000007F#32 = 0x00000067#32 →
    let rd := w.extractLsb' 7 5
    let rs1 := w.extractLsb' 15 5
    let imm := signExtend (bits w 31 20) 11
    let i := Instr.jalr rd rs1 (w.extractLsb' 20 12)
    decodeWord w = i ∧
    Delivers s i { kind_o := 4, fmt_o := 2, rd_o := rd, rs1_o := rs1, imm_o := BitVec.ofInt 32 imm }
      (operandTail "jalr" (regName rd ++ ascii ", " ++ regName rs1 ++ ascii ", " ++ decimal imm))

/-- The branches (R162 to R167; bit 12 as the ARCH sign is the spec's own decision D1, log entry 10; the 0 on every
port the format does not use is the spec's own decision D7, log entry 9). -/
def Obligations.BranchWords : Prop :=
  ∀ (s : State) (w : Word),
    ∀ row ∈ ([(0x00000063#32, 5#6, "beq", Instr.beq), (0x00001063#32, 6#6, "bne", Instr.bne),
        (0x00004063#32, 7#6, "blt", Instr.blt), (0x00005063#32, 8#6, "bge", Instr.bge),
        (0x00006063#32, 9#6, "bltu", Instr.bltu), (0x00007063#32, 10#6, "bgeu", Instr.bgeu)] :
      List (Word × BitVec 6 × String × (RegIdx → RegIdx → BitVec 13 → Instr))),
    w &&& 0x0000707F#32 = row.1 →
    let rs1 := w.extractLsb' 15 5
    let rs2 := w.extractLsb' 20 5
    let immB := (bits w 31 31 <<< 12) ||| (bits w 7 7 <<< 11) ||| (bits w 30 25 <<< 5) ||| (bits w 11 8 <<< 1)
    let imm := signExtend immB (match s.params.immMode with | .compat => 11 | .arch => 12)
    let i := row.2.2.2 rs1 rs2 (BitVec.ofNat 13 immB)
    decodeWord w = i ∧
    Delivers s i { kind_o := row.2.1, fmt_o := 4, rs1_o := rs1, rs2_o := rs2, imm_o := BitVec.ofInt 32 imm }
      (operandTail row.2.2.1 (regName rs1 ++ ascii ", " ++ regName rs2 ++ ascii ", " ++ decimal imm))

/-- The loads, rendered in the bracket form (R180 to R184; the 0 on every port the format does not use is the spec's
own decision D7, log entry 9). -/
def Obligations.LoadWords : Prop :=
  ∀ (s : State) (w : Word),
    ∀ row ∈ ([(0x00000003#32, 11#6, "lb", Instr.lb), (0x00001003#32, 12#6, "lh", Instr.lh),
        (0x00002003#32, 13#6, "lw", Instr.lw), (0x00004003#32, 14#6, "lbu", Instr.lbu),
        (0x00005003#32, 15#6, "lhu", Instr.lhu)] :
      List (Word × BitVec 6 × String × (RegIdx → RegIdx → BitVec 12 → Instr))),
    w &&& 0x0000707F#32 = row.1 →
    let rd := w.extractLsb' 7 5
    let rs1 := w.extractLsb' 15 5
    let imm := signExtend (bits w 31 20) 11
    let i := row.2.2.2 rd rs1 (w.extractLsb' 20 12)
    decodeWord w = i ∧
    Delivers s i { kind_o := row.2.1, fmt_o := 2, rd_o := rd, rs1_o := rs1, imm_o := BitVec.ofInt 32 imm }
      (operandTail row.2.2.1 (regName rd ++ ascii ", " ++ decimal imm ++ ascii "(" ++ regName rs1 ++ ascii ")"))

/-- The stores, the data register first (R186 to R188; the 0 on every port the format does not use is the spec's own
decision D7, log entry 9). -/
def Obligations.StoreWords : Prop :=
  ∀ (s : State) (w : Word),
    ∀ row ∈ ([(0x00000023#32, 16#6, "sb", Instr.sb), (0x00001023#32, 17#6, "sh", Instr.sh),
        (0x00002023#32, 18#6, "sw", Instr.sw)] :
      List (Word × BitVec 6 × String × (RegIdx → RegIdx → BitVec 12 → Instr))),
    w &&& 0x0000707F#32 = row.1 →
    let rs1 := w.extractLsb' 15 5
    let rs2 := w.extractLsb' 20 5
    let imm12 := (bits w 31 25 <<< 5) ||| bits w 11 7
    let imm := signExtend imm12 11
    let i := row.2.2.2 rs1 rs2 (BitVec.ofNat 12 imm12)
    decodeWord w = i ∧
    Delivers s i { kind_o := row.2.1, fmt_o := 3, rs1_o := rs1, rs2_o := rs2, imm_o := BitVec.ofInt 32 imm }
      (operandTail row.2.2.1 (regName rs2 ++ ascii ", " ++ decimal imm ++ ascii "(" ++ regName rs1 ++ ascii ")"))

/-- The signed ALU immediates; `w[31:25]` is part of the immediate (R200, R201, R203, R204, R205; the 0 on every port
the format does not use is the spec's own decision D7, log entry 9). -/
def Obligations.AluImmediateWords : Prop :=
  ∀ (s : State) (w : Word),
    ∀ row ∈ ([(0x00000013#32, 19#6, "addi", Instr.addi), (0x00002013#32, 20#6, "slti", Instr.slti),
        (0x00004013#32, 22#6, "xori", Instr.xori), (0x00006013#32, 23#6, "ori", Instr.ori),
        (0x00007013#32, 24#6, "andi", Instr.andi)] :
      List (Word × BitVec 6 × String × (RegIdx → RegIdx → BitVec 12 → Instr))),
    w &&& 0x0000707F#32 = row.1 →
    let rd := w.extractLsb' 7 5
    let rs1 := w.extractLsb' 15 5
    let imm := signExtend (bits w 31 20) 11
    let i := row.2.2.2 rd rs1 (w.extractLsb' 20 12)
    decodeWord w = i ∧
    Delivers s i { kind_o := row.2.1, fmt_o := 2, rd_o := rd, rs1_o := rs1, imm_o := BitVec.ofInt 32 imm }
      (operandTail row.2.2.1 (regName rd ++ ascii ", " ++ regName rs1 ++ ascii ", " ++ decimal imm))

/-- SLTIU, its immediate unsigned in COMPAT and signed in ARCH (R202; the ARCH value is the spec's own decision D2,
log entry 10; the 0 on every port the format does not use is the spec's own decision D7, log entry 9). -/
def Obligations.SltiuWords : Prop :=
  ∀ (s : State) (w : Word), w &&& 0x0000707F#32 = 0x00003013#32 →
    let rd := w.extractLsb' 7 5
    let rs1 := w.extractLsb' 15 5
    let imm : Int :=
      match s.params.immMode with
      | .compat => (bits w 31 20 : Int)
      | .arch => signExtend (bits w 31 20) 11
    let i := Instr.sltiu rd rs1 (w.extractLsb' 20 12)
    decodeWord w = i ∧
    Delivers s i { kind_o := 21, fmt_o := 2, rd_o := rd, rs1_o := rs1, imm_o := BitVec.ofInt 32 imm }
      (operandTail "sltiu" (regName rd ++ ascii ", " ++ regName rs1 ++ ascii ", " ++ decimal imm))

/-- The shifts by an immediate amount (R206 to R208; the 0 on every port the format does not use is the spec's own
decision D7, log entry 9). -/
def Obligations.ShiftImmediateWords : Prop :=
  ∀ (s : State) (w : Word),
    ∀ row ∈ ([(0x00001013#32, 25#6, "slli", Instr.slli), (0x00005013#32, 26#6, "srli", Instr.srli),
        (0x40005013#32, 27#6, "srai", Instr.srai)] :
      List (Word × BitVec 6 × String × (RegIdx → RegIdx → BitVec 5 → Instr))),
    w &&& 0xFE00707F#32 = row.1 →
    let rd := w.extractLsb' 7 5
    let rs1 := w.extractLsb' 15 5
    let shamt := w.extractLsb' 20 5
    let i := row.2.2.2 rd rs1 shamt
    decodeWord w = i ∧
    Delivers s i { kind_o := row.2.1, fmt_o := 7, rd_o := rd, rs1_o := rs1, shamt_o := shamt }
      (operandTail row.2.2.1 (regName rd ++ ascii ", " ++ regName rs1 ++ ascii ", " ++ decimalNat shamt.toNat))

/-- The register-register instructions (R220 to R229; the 0 on every port the format does not use is the spec's own
decision D7, log entry 9). -/
def Obligations.RegisterRegisterWords : Prop :=
  ∀ (s : State) (w : Word),
    ∀ row ∈ ([(0x00000033#32, 28#6, "add", Instr.add), (0x40000033#32, 29#6, "sub", Instr.sub),
        (0x00001033#32, 30#6, "sll", Instr.sll), (0x00002033#32, 31#6, "slt", Instr.slt),
        (0x00003033#32, 32#6, "sltu", Instr.sltu), (0x00004033#32, 33#6, "xor", Instr.xor),
        (0x00005033#32, 34#6, "srl", Instr.srl), (0x40005033#32, 35#6, "sra", Instr.sra),
        (0x00006033#32, 36#6, "or", Instr.or), (0x00007033#32, 37#6, "and", Instr.and)] :
      List (Word × BitVec 6 × String × (RegIdx → RegIdx → RegIdx → Instr))),
    w &&& 0xFE00707F#32 = row.1 →
    let rd := w.extractLsb' 7 5
    let rs1 := w.extractLsb' 15 5
    let rs2 := w.extractLsb' 20 5
    let i := row.2.2.2 rd rs1 rs2
    decodeWord w = i ∧
    Delivers s i { kind_o := row.2.1, fmt_o := 1, rd_o := rd, rs1_o := rs1, rs2_o := rs2 }
      (operandTail row.2.2.1 (regName rd ++ ascii ", " ++ regName rs1 ++ ascii ", " ++ regName rs2))

/-- The RV32M instructions; three fields, and register `zero` as divisor like any other (R240 to R247; the 0 on every
port the format does not use is the spec's own decision D7, log entry 9; that `0x02058533` is MUL, as its row says, and
not the DIV of R244's corner case is log entry 21). -/
def Obligations.MultiplyDivideWords : Prop :=
  ∀ (s : State) (w : Word),
    ∀ row ∈ ([(0x02000033#32, 38#6, "mul", Instr.mul), (0x02001033#32, 39#6, "mulh", Instr.mulh),
        (0x02002033#32, 40#6, "mulhsu", Instr.mulhsu), (0x02003033#32, 41#6, "mulhu", Instr.mulhu),
        (0x02004033#32, 42#6, "div", Instr.div), (0x02005033#32, 43#6, "divu", Instr.divu),
        (0x02006033#32, 44#6, "rem", Instr.rem), (0x02007033#32, 45#6, "remu", Instr.remu)] :
      List (Word × BitVec 6 × String × (RegIdx → RegIdx → RegIdx → Instr))),
    w &&& 0xFE00707F#32 = row.1 →
    let rd := w.extractLsb' 7 5
    let rs1 := w.extractLsb' 15 5
    let rs2 := w.extractLsb' 20 5
    let i := row.2.2.2 rd rs1 rs2
    decodeWord w = i ∧
    Delivers s i { kind_o := row.2.1, fmt_o := 1, rd_o := rd, rs1_o := rs1, rs2_o := rs2 }
      (operandTail row.2.2.1 (regName rd ++ ascii ", " ++ regName rs1 ++ ascii ", " ++ regName rs2))

/-- A word is FENCE exactly when `w[31:28]` is 0 and `w[19:0]` is `0x0000F`; it yields its two masks, in unsigned
decimal (R260, R91, R82; the compared value is the spec's own decision, D3, log entry 11; the 0 on every port the
format does not use is D7, log entry 9). -/
def Obligations.FenceWords : Prop :=
  ∀ (s : State) (w : Word),
    (classify w = .fence ↔ bits w 31 28 = 0b0000 ∧ bits w 19 0 = 0x0000F) ∧
    (w &&& 0xF00FFFFF#32 = 0x0000000F#32 →
      let pred := w.extractLsb' 24 4
      let succ := w.extractLsb' 20 4
      decodeWord w = .fence pred succ ∧
      Delivers s (.fence pred succ) { kind_o := 46, fmt_o := 8, pred_o := pred, succ_o := succ }
        (operandTail "fence" (decimalNat pred.toNat ++ ascii ", " ++ decimalNat succ.toNat)))

/-- FENCE.I, ECALL and EBREAK: whole-word equality, no operand, mnemonic only (R261, R270, R271; that the line ends
after the mnemonic with no tab is the spec's own decision D13, log entry 14, and the 0 on every operand port is D7,
log entry 9). -/
def Obligations.NoOperandWords : Prop :=
  ∀ s : State,
    ∀ row ∈ ([(0x0000100F#32, 47#6, "fence.i", Instr.fencei), (0x00000073#32, 48#6, "ecall", Instr.ecall),
        (0x00100073#32, 49#6, "ebreak", Instr.ebreak)] : List (Word × BitVec 6 × String × Instr)),
    decodeWord row.1 = row.2.2.2 ∧ (∀ w, decodeWord w = row.2.2.2 → w = row.1) ∧
    Delivers s row.2.2.2 { kind_o := row.2.1, fmt_o := 11 } (ascii "\t\t" ++ ascii row.2.2.1 ++ ascii "\n")

/-- The register-source CSR instructions; any CSR number is decoded (R272 to R274; the 0 on every port the format does
not use is the spec's own decision D7, log entry 9). -/
def Obligations.CsrRegisterWords : Prop :=
  ∀ (s : State) (w : Word),
    ∀ row ∈ ([(0x00001073#32, 50#6, "csrrw", Instr.csrrw), (0x00002073#32, 51#6, "csrrs", Instr.csrrs),
        (0x00003073#32, 52#6, "csrrc", Instr.csrrc)] :
      List (Word × BitVec 6 × String × (RegIdx → BitVec 12 → RegIdx → Instr))),
    w &&& 0x0000707F#32 = row.1 →
    let rd := w.extractLsb' 7 5
    let csr := w.extractLsb' 20 12
    let rs1 := w.extractLsb' 15 5
    let i := row.2.2.2 rd csr rs1
    decodeWord w = i ∧
    Delivers s i { kind_o := row.2.1, fmt_o := 9, rd_o := rd, csr_o := csr, rs1_o := rs1 }
      (operandTail row.2.2.1 (regName rd ++ ascii ", " ++ decimalNat csr.toNat ++ ascii ", " ++ regName rs1))

/-- The immediate-source CSR instructions; `w[19:15]` is a number and never a register (R275 to R277; the 0 on every
port the format does not use is the spec's own decision D7, log entry 9). -/
def Obligations.CsrImmediateWords : Prop :=
  ∀ (s : State) (w : Word),
    ∀ row ∈ ([(0x00005073#32, 53#6, "csrrwi", Instr.csrrwi), (0x00006073#32, 54#6, "csrrsi", Instr.csrrsi),
        (0x00007073#32, 55#6, "csrrci", Instr.csrrci)] :
      List (Word × BitVec 6 × String × (RegIdx → BitVec 12 → BitVec 5 → Instr))),
    w &&& 0x0000707F#32 = row.1 →
    let rd := w.extractLsb' 7 5
    let csr := w.extractLsb' 20 12
    let zimm := w.extractLsb' 15 5
    let i := row.2.2.2 rd csr zimm
    decodeWord w = i ∧
    Delivers s i { kind_o := row.2.1, fmt_o := 10, rd_o := rd, csr_o := csr, zimm_o := zimm }
      (operandTail row.2.2.1
        (regName rd ++ ascii ", " ++ decimalNat csr.toNat ++ ascii ", " ++ decimalNat zimm.toNat))

/-- A word that no row of the opcode table matches completes with kind 0 and every port 0 and a line with one tab and
the word UNKNOWN, and what comes after it is decoded as if it had not been there (R301, R345; the line's address
prefix is the spec's own decision, D14, log entry 14; the 0 on every port is D7, log entry 9). -/
def Obligations.UnknownWordIsOrdinaryOutput : Prop :=
  ∀ (s : State) (w : Word), (∀ k, k ≠ Kind.unknown → w &&& tableMask k ≠ tableMatch k) →
    decodeWord w = .unknown ∧
    Delivers s .unknown { kind_o := 0, fmt_o := 0 } (ascii "\tUNKNOWN\n") ∧
    ∃ u, exec .unknown s = .next u ∧
      ∀ i, ∃ t t', exec i s = .next t ∧ exec i u = .next t' ∧ t'.out = t.out

/-! ## All instructions -/

/-- Executing a decoded word drives exactly the record of the exhibit of R102 and writes exactly its line. The exhibit
holds the spec's own decisions D1 and D2 (log entry 10), D3 and D4 (log entry 11); the 0 on every port the format does
not use is D7 (log entry 9), the shape of the line is log entry 14, and that `0x02058533` is MUL is log entry 21. -/
def Obligations.ExecRefinesExhibit : Prop :=
  ∀ (s : State) (w : Word),
    Delivers s (decodeWord w) (blockDecode s.params.immMode w)
      (lineTail (exhibit w s.params.immMode).1 (exhibit w s.params.immMode).2)

/-- R300, R346: every instruction of the table, UNKNOWN included, completes in every state: no fault, no refusal, one
line, one position on. -/
def Obligations.EveryInstructionCompletes : Prop :=
  ∀ (i : Instr) (s : State), ∃ t line, exec i s = .next t ∧ t.sink = s.sink ++ [line] ∧ t.index = s.index + 1

/-- The frame of every instruction: but for the ports, the sink and the position nothing changes; every byte of the
code buffer reads as before, for loads, stores, fences and system instructions alike. -/
def Obligations.InstructionsChangeNothingElse : Prop :=
  ∀ (i : Instr) (s t : State), exec i s = .next t → SameHost s t

/-- For the format on `fmt_o`, every operand port that R23 does not list is 0 (the spec's own decision, D7; log entry
9). -/
def Obligations.UnusedPortsAreZero : Prop :=
  ∀ (i : Instr) (s : State), ∃ t, exec i s = .next t ∧
    (t.out.fmt_o.toNat ∉ [1, 2, 5, 6, 7, 9, 10] → t.out.rd_o = 0) ∧
    (t.out.fmt_o.toNat ∉ [1, 2, 3, 4, 7, 9] → t.out.rs1_o = 0) ∧
    (t.out.fmt_o.toNat ∉ [1, 3, 4] → t.out.rs2_o = 0) ∧
    (t.out.fmt_o.toNat ∉ [2, 3, 4, 5, 6] → t.out.imm_o = 0) ∧
    (t.out.fmt_o.toNat ≠ 7 → t.out.shamt_o = 0) ∧
    (t.out.fmt_o.toNat ≠ 8 → t.out.pred_o = 0 ∧ t.out.succ_o = 0) ∧
    (t.out.fmt_o.toNat ∉ [9, 10] → t.out.csr_o = 0) ∧
    (t.out.fmt_o.toNat ≠ 10 → t.out.zimm_o = 0)

/-- The kind on `kind_o` determines the format on `fmt_o` by the table of R110 with the codes of R30 and R31, whose
numbering is the spec's own (D5; log entry 9); codes 56 to 63 and 12 to 15 are never driven. -/
def Obligations.KindDeterminesFormat : Prop :=
  ∀ (i : Instr) (s : State), ∃ t, exec i s = .next t ∧ t.out.kind_o.toNat ≤ 55 ∧ t.out.fmt_o.toNat ≤ 11 ∧
    ∀ row ∈ ([(0, 0, 0), (1, 2, 5), (3, 3, 6), (4, 4, 2), (5, 10, 4), (11, 15, 2), (16, 18, 3), (19, 24, 2),
        (25, 27, 7), (28, 45, 1), (46, 46, 8), (47, 49, 11), (50, 52, 9), (53, 55, 10)] : List (Nat × Nat × Nat)),
      row.1 ≤ t.out.kind_o.toNat → t.out.kind_o.toNat ≤ row.2.1 → t.out.fmt_o.toNat = row.2.2

/-! ## Steps and passes -/

/-- A step runs the decoded instruction: while a word is left, a step puts it on the input and is `exec` of what it
decodes to; `exec` itself moves on to the next word. -/
def Obligations.StepRunsDecodedWord : Prop :=
  ∀ (s : State) (w : Word), Feeds s w → step s = exec (decodeWord w) { s with insn := w }

/-- The ports after a step are a function of the word fed and of `IMM_MODE` alone, whatever the two machines decoded
before, so decoding the same word twice gives the same outputs (R20, R325). The values are those of the exhibit of
R102, which holds the spec's own decisions D1 and D2 (log entry 10), D3 and D4 (log entry 11), and log entry 21; the 0
on every port the format does not use is D7 (log entry 9). -/
def Obligations.OutputsDependOnWordAndModeOnly : Prop :=
  ∀ (s₁ s₂ : State) (w : Word), Feeds s₁ w → Feeds s₂ w → s₁.params.immMode = s₂.params.immMode →
    ∃ t₁ t₂, step s₁ = .next t₁ ∧ step s₂ = .next t₂ ∧ t₁.out = t₂.out ∧
      t₁.out = blockDecode s₁.params.immMode w

/-- Of a rejected object no word is fed and no line is written (R349, R305); that the step is refused with the defect
is the model's form of the halt (log entry 6). -/
def Obligations.RejectedObjectFeedsNothing : Prop :=
  (∀ (s : State) (d : ObjectDefect), s.defect = some d → step s = .refused (.objectRejected d)) ∧
  ∀ (s : State) (o : ObjectFile) (p : Params) (d : ObjectDefect), o.defect = some d →
    (s.handOver o p).sink = [] ∧ step (s.handOver o p) = .refused (.objectRejected d)

/-- No step changes the parameters (R322; that they are fixed for a pass is the spec's own decision D19, log entry
10), nor the code buffer, the word count, the base or the symbol table (R47, R50), nor the loader's verdict. -/
def Obligations.StepLeavesHandedOverDataFixed : Prop :=
  ∀ s t : State, step s = .next t →
    t.params = s.params ∧ (∀ a, Memory.read t.mem a = Memory.read s.mem a) ∧ t.nWords = s.nWords ∧
      t.base = s.base ∧ t.symbols = s.symbols ∧ t.defect = s.defect

/-- On a machine whose object was accepted and whose code buffer is whole, every step goes on, and the machine it
leaves is such a machine again (R351; that a step after the last word changes nothing is the model's choice, log
entry 4, and that a missing byte faults is log entry 5). -/
def Obligations.SafeMachineNeverStops : Prop :=
  ∀ s : State, Safe s → ∃ t, step s = .next t ∧ Safe t

/-- Every step keeps the invariant of a pass: the canonical code buffer, whole for every word; one line for each word
fed, in order, each the line of its own word; the ports the decode of the word on the input. The lines and the ports
are those of the exhibit, with the spec's own decisions that `ExecRefinesExhibit` names (log entries 9, 10, 11, 14 and
21). -/
def Obligations.StepKeepsInvariant : Prop :=
  ∀ s t : State, Inv s → step s = .next t → Inv t

/-- The invariant holds after reset. -/
def Obligations.ResetMeetsInvariant : Prop :=
  Inv State.reset

/-- The invariant holds after every hand-over, whatever was there before, of an accepted and of a rejected object.
What a hand-over keeps and clears is the model's choice (log entry 7). -/
def Obligations.HandOverMeetsInvariant : Prop :=
  ∀ (s : State) (o : ObjectFile) (p : Params), Inv (s.handOver o p)

/-- The words handed over are the words the code buffer holds, the base is the base given, and each symbol's name is
the bytes before the first `0x00` (R340, R341; the code buffer keyed by section position is the model's form, log
entry 5). -/
def Obligations.HandOverKeepsWordsAndSymbols : Prop :=
  ∀ (s : State) (o : ObjectFile) (p : Params), o.defect = none →
    (s.handOver o p).nWords = o.codeWords.length ∧ (s.handOver o p).base = o.base ∧ (s.handOver o p).params = p ∧
    (∀ k (h : k < o.codeWords.length), Memory.readWord (s.handOver o p).mem k = some o.codeWords[k]) ∧
    (s.handOver o p).symbols.length = o.symbols.length ∧
    ∀ k (h : k < o.symbols.length) (name rest : List Byte), o.symbols[k].stringBytes = name ++ 0 :: rest →
      (0 : Byte) ∉ name →
      (s.handOver o p).symbols[k]? =
        some { name := name, value := o.symbols[k].value, size := o.symbols[k].size, info := o.symbols[k].info }

/-- A whole pass over any object writes exactly one line per word, in input order, each the line of its own word at
its own address (R346); that the steps after the last word write nothing more is the model's choice (log entry 4). The
lines are those of the exhibit, with the spec's own decisions that `ExecRefinesExhibit` names (log entries 10, 11, 14
and 21). -/
def Obligations.PassWritesTheListing : Prop :=
  ∀ (s : State) (o : ObjectFile) (p : Params) (extra : Nat), o.defect = none →
    ∃ t, Host.Core.run Sys2Proof.core (o.codeWords.length + extra) (s.handOver o p) = .next t ∧
      t.sink = o.codeWords.mapIdx
        (fun k w => listingLine p o.base (o.symbols.map resolveSymbol) k w) ∧
      t.index = o.codeWords.length

/-! ## Labels, addresses and text -/

/-- The label of an address is the name of the last function symbol in table order whose value equals it; with no such
symbol there is none (R342; that only the exact address is labelled, and not the inside of a function, is the spec's
own decision, D23, with conflict C8; log entry 14). -/
def Obligations.LabelIsLastMatchingFunction : Prop :=
  ∀ (symbols : List SymbolEntry) (a : Word),
    (∀ name, label symbols a = some name ↔
      ∃ before y after, symbols = before ++ y :: after ∧ y.name = name ∧ y.value = a ∧ y.info.toNat % 16 = 2 ∧
        ∀ z ∈ after, ¬(z.value = a ∧ z.info.toNat % 16 = 2)) ∧
    (label symbols a = none ↔ ∀ z ∈ symbols, ¬(z.value = a ∧ z.info.toNat % 16 = 2))

/-- The line of every instruction is the line head and then a tail, which the statements of the families and
`ExecRefinesExhibit` give after that same head. The head, with nothing after the label, is exactly eight hexadecimal
digits in the case of `HEX_CASE`, which read as `(base + 4*index) mod 2^32` under ABSOLUTE and as `4*index mod 2^32`
under SECTION_OFFSET, then a colon and a space, then the label of the absolute address in angle brackets under both,
and nothing where there is no label (R340, R343, R344, R347, R348; the reduction modulo `2^32` is the spec's own
decision, D17, and the text of the line is log entry 14). -/
def Obligations.LineBeginsWithAddressAndLabel : Prop :=
  ∀ (i : Instr) (s : State), ∃ t digits tail, exec i s = .next t ∧
    t.sink = s.sink ++ [lineHead s.params s.base s.symbols s.index ++ tail] ∧
    lineHead s.params s.base s.symbols s.index = digits ++ ascii ": " ++
      (match label s.symbols (BitVec.ofNat 32 (s.base.toNat + 4 * s.index)) with
        | some name => ascii "<" ++ name ++ ascii ">"
        | none => []) ∧
    digits.length = 8 ∧ (∀ d ∈ digits, hexValue s.params.hexCase d < 16) ∧
    readHex s.params.hexCase digits =
      (match s.params.lineAddr with
        | .absolute => s.base.toNat + 4 * s.index
        | .sectionOffset => 4 * s.index) % 2 ^ 32

/-- A number is rendered in decimal digits that read back as the number, without leading zeros, with a leading minus
sign exactly when it is negative; zero is the one digit `0` (R128; decimal for every number is the spec's own decision, D11; log entry 14). -/
def Obligations.DecimalReadsBack : Prop :=
  (∀ n : Nat, readDecimal (decimalNat n) = n ∧ (∀ c ∈ decimalNat n, decimalDigit c < 10) ∧ decimalNat n ≠ [] ∧
    (n ≠ 0 → (decimalNat n).head? ≠ some 0x30)) ∧
  decimalNat 0 = [0x30] ∧
  ∀ v : Int, decimal v = if v < 0 then 0x2D :: decimalNat v.natAbs else decimalNat v.natAbs

/-- The 32 ABI names in index order, and their form on `name_o`: the first character in the lowest byte, every byte
past the end of the name 0 (R86, R87; the index of all names but two is the spec's own decision, D9; log entry 13). -/
def Obligations.RegisterNamesAndTheirPort : Prop :=
  (List.ofFn (fun n : Fin 32 => regName (BitVec.ofFin n)) =
    ["zero", "ra", "sp", "gp", "tp", "t0", "t1", "t2", "s0", "s1", "a0", "a1", "a2", "a3", "a4",
    "a5", "a6", "a7", "s2", "s3", "s4", "s5", "s6", "s7", "s8", "s9", "s10", "s11", "t3", "t4", "t5", "t6"].map ascii) ∧
  ∀ i : RegIdx, 2 ≤ (regName i).length ∧ (regName i).length ≤ 4 ∧
    ∀ k, k < 4 → (regNamePort i).extractLsb' (8 * k) 8 = (regName i).getD k 0

/-! ## The boot steps of the host -/

/-- The boot steps of R324 in their order. After step (1) the verdict is recorded, nothing is loaded, the base and the
parameters are untouched, and no word can be fed. A rejected object ends there: steps (2) and (3) are not done. An
accepted one is then loaded whole, with its base and symbols, and the parameters are fixed last. The ports are not
driven by any of it. The three steps as functions of the host, and the host parameters fixed with `IMM_MODE`, are log
entry 3; that nothing is fed before the load, as with any empty code buffer, is log entry 4; the emptied buffers and
sink of a new pass, the ports kept even where the mode changes, and the parameters a rejected object leaves alone are
log entry 7. -/
def Obligations.HandOverCompletesTheBootStepsInOrder : Prop :=
  ∀ (s : State) (o : ObjectFile) (p : Params),
    let validated := s.validateObject o
    let loaded := validated.loadObject o
    (validated.defect = o.defect ∧ (∀ a, Memory.read validated.mem a = none) ∧ validated.nWords = 0 ∧
      validated.symbols = [] ∧ validated.base = s.base ∧ validated.params = s.params ∧
      ∀ w, ¬Feeds validated w) ∧
    (∀ d, o.defect = some d →
      s.handOver o p = validated ∧ step (s.handOver o p) = .refused (.objectRejected d)) ∧
    (o.defect = none →
      step validated = .next validated ∧
      loaded.nWords = o.codeWords.length ∧ loaded.base = o.base ∧ loaded.symbols = o.symbols.map resolveSymbol ∧
      (∀ k (h : k < o.codeWords.length), Memory.readWord loaded.mem k = some o.codeWords[k]) ∧
      loaded.params = s.params ∧
      s.handOver o p = { loaded with params := p }) ∧
    (s.handOver o p).insn = s.insn ∧ (s.handOver o p).out = s.out ∧ (s.handOver o p).index = 0 ∧
      (s.handOver o p).sink = []
end

