-- ==== Sys2Proof/Laws/Decode.lean ====
section
/-! SUPPORT. The fields of a word as bit ranges, what a masked comparison says about the fields, which kind the
classifier gives once the opcode is known, and the fields of an encoded word. -/

namespace Sys2Proof

/-! ## Fields as bit ranges -/

theorem opField_eq (w : Word) : opField w = w.extractLsb' 0 7 := rfl
theorem rdField_eq (w : Word) : rdField w = w.extractLsb' 7 5 := rfl
theorem f3Field_eq (w : Word) : f3Field w = w.extractLsb' 12 3 := rfl
theorem rs1Field_eq (w : Word) : rs1Field w = w.extractLsb' 15 5 := rfl
theorem rs2Field_eq (w : Word) : rs2Field w = w.extractLsb' 20 5 := rfl
theorem f7Field_eq (w : Word) : f7Field w = w.extractLsb' 25 7 := rfl
theorem fmField_eq (w : Word) : fmField w = w.extractLsb' 28 4 := rfl
theorem lo20Field_eq (w : Word) : lo20Field w = w.extractLsb' 0 20 := rfl
theorem predField_eq (w : Word) : predField w = w.extractLsb' 24 4 := rfl
theorem succField_eq (w : Word) : succField w = w.extractLsb' 20 4 := rfl
theorem csrField_eq (w : Word) : csrField w = w.extractLsb' 20 12 := rfl
theorem zimmField_eq (w : Word) : zimmField w = w.extractLsb' 15 5 := rfl
theorem shamtField_eq (w : Word) : shamtField w = w.extractLsb' 20 5 := rfl
theorem immIField_eq (w : Word) : immIField w = w.extractLsb' 20 12 := rfl
theorem immUField_eq (w : Word) : immUField w = w.extractLsb' 12 20 := rfl
theorem immSField_eq (w : Word) : immSField w = w.extractLsb' 25 7 ++ w.extractLsb' 7 5 := rfl
theorem immBField_eq (w : Word) : immBField w =
    w.extractLsb' 31 1 ++ w.extractLsb' 7 1 ++ w.extractLsb' 25 6 ++ w.extractLsb' 8 4 ++ 0#1 := rfl
theorem immJField_eq (w : Word) : immJField w =
    w.extractLsb' 31 1 ++ w.extractLsb' 12 8 ++ w.extractLsb' 20 1 ++ w.extractLsb' 21 10 ++ 0#1 := rfl

/-! ## Masked comparisons (the rows of the opcode table) as equations of fields -/

theorem and_opcodeMask (w : Word) (op : BitVec 7) :
    w &&& 0x0000007F#32 = 0#25 ++ op ↔ opField w = op := by
  rw [opField_eq]
  constructor
  · intro h
    ext i hi
    have := congrArg (·.getLsbD (0 + i)) h
    simp only [BitVec.getLsbD_and, BitVec.getLsbD_append] at this
    interval_cases i <;> simpa using this
  · rintro rfl
    apply BitVec.eq_of_getLsbD_eq
    intro i hi
    simp only [BitVec.getLsbD_and, BitVec.getLsbD_append, BitVec.getLsbD_extractLsb']
    interval_cases i <;> simp

theorem and_funct3Mask (w : Word) (f3 : BitVec 3) (op : BitVec 7) :
    w &&& 0x0000707F#32 = 0#17 ++ f3 ++ 0#5 ++ op ↔ f3Field w = f3 ∧ opField w = op := by
  rw [f3Field_eq, opField_eq]
  constructor
  · intro h
    refine ⟨?_, ?_⟩
    · ext i hi
      have := congrArg (·.getLsbD (12 + i)) h
      simp only [BitVec.getLsbD_and, BitVec.getLsbD_append] at this
      interval_cases i <;> simpa using this
    · ext i hi
      have := congrArg (·.getLsbD (0 + i)) h
      simp only [BitVec.getLsbD_and, BitVec.getLsbD_append] at this
      interval_cases i <;> simpa using this
  · rintro ⟨rfl, rfl⟩
    apply BitVec.eq_of_getLsbD_eq
    intro i hi
    simp only [BitVec.getLsbD_and, BitVec.getLsbD_append, BitVec.getLsbD_extractLsb']
    interval_cases i <;> simp

theorem and_funct7Mask (w : Word) (f7 : BitVec 7) (f3 : BitVec 3) (op : BitVec 7) :
    w &&& 0xFE00707F#32 = f7 ++ 0#10 ++ f3 ++ 0#5 ++ op ↔ f7Field w = f7 ∧ f3Field w = f3 ∧ opField w = op := by
  rw [f7Field_eq, f3Field_eq, opField_eq]
  constructor
  · intro h
    refine ⟨?_, ?_, ?_⟩
    · ext i hi
      have := congrArg (·.getLsbD (25 + i)) h
      simp only [BitVec.getLsbD_and, BitVec.getLsbD_append] at this
      interval_cases i <;> simpa using this
    · ext i hi
      have := congrArg (·.getLsbD (12 + i)) h
      simp only [BitVec.getLsbD_and, BitVec.getLsbD_append] at this
      interval_cases i <;> simpa using this
    · ext i hi
      have := congrArg (·.getLsbD (0 + i)) h
      simp only [BitVec.getLsbD_and, BitVec.getLsbD_append] at this
      interval_cases i <;> simpa using this
  · rintro ⟨rfl, rfl, rfl⟩
    apply BitVec.eq_of_getLsbD_eq
    intro i hi
    simp only [BitVec.getLsbD_and, BitVec.getLsbD_append, BitVec.getLsbD_extractLsb']
    interval_cases i <;> simp

theorem and_fenceMask (w : Word) (fm : BitVec 4) (lo : BitVec 20) :
    w &&& 0xF00FFFFF#32 = fm ++ 0#8 ++ lo ↔ fmField w = fm ∧ lo20Field w = lo := by
  rw [fmField_eq, lo20Field_eq]
  constructor
  · intro h
    refine ⟨?_, ?_⟩
    · ext i hi
      have := congrArg (·.getLsbD (28 + i)) h
      simp only [BitVec.getLsbD_and, BitVec.getLsbD_append] at this
      interval_cases i <;> simpa using this
    · ext i hi
      have := congrArg (·.getLsbD (0 + i)) h
      simp only [BitVec.getLsbD_and, BitVec.getLsbD_append] at this
      interval_cases i <;> simpa using this
  · rintro ⟨rfl, rfl⟩
    apply BitVec.eq_of_getLsbD_eq
    intro i hi
    simp only [BitVec.getLsbD_and, BitVec.getLsbD_append, BitVec.getLsbD_extractLsb']
    interval_cases i <;> simp

/-! ## The classifier once the opcode is known -/

theorem opField_of_lo20Field {w : Word} (h : lo20Field w = 0x0000F#20) : opField w = 0b0001111#7 := by
  rw [lo20Field_eq] at h
  have : opField w = (w.extractLsb' 0 20).extractLsb' 0 7 := by
    rw [opField_eq]
    apply BitVec.eq_of_getLsbD_eq
    intro i hi
    simp only [BitVec.getLsbD_extractLsb']
    interval_cases i <;> simp
  rw [this, h]
  rfl

/-- Outside the SYSTEM and MISC-MEM opcodes no whole-word match and no FENCE match can hold. -/
theorem classify_of_opField {w : Word} (hs : opField w ≠ 0b1110011#7) (hm : opField w ≠ 0b0001111#7) :
    classify w =
      if opField w = 0b0110111#7 then .lui
      else if opField w = 0b0010111#7 then .auipc
      else if opField w = 0b1101111#7 then .jal
      else if opField w = 0b1100111#7 then .jalr
      else if opField w = 0b1100011#7 then classifyBranch (f3Field w)
      else if opField w = 0b0000011#7 then classifyLoad (f3Field w)
      else if opField w = 0b0100011#7 then classifyStore (f3Field w)
      else if opField w = 0b0010011#7 then classifyOpImm (f3Field w) (f7Field w)
      else if opField w = 0b0110011#7 then classifyOp (f3Field w) (f7Field w)
      else .unknown := by
  have he : w ≠ 0x00000073#32 := by rintro rfl; exact hs (by decide)
  have hb : w ≠ 0x00100073#32 := by rintro rfl; exact hs (by decide)
  have hi : w ≠ 0x0000100F#32 := by rintro rfl; exact hm (by decide)
  have hf : ¬(fmField w = 0b0000#4 ∧ lo20Field w = 0x0000F#20) := fun h => hm (opField_of_lo20Field h.2)
  simp only [classify, if_neg he, if_neg hb, if_neg hi, if_neg hf, if_neg hs]

theorem classify_lui {w : Word} (h : opField w = 0b0110111#7) : classify w = .lui := by
  rw [classify_of_opField (by rw [h]; decide) (by rw [h]; decide), h]; rfl

theorem classify_auipc {w : Word} (h : opField w = 0b0010111#7) : classify w = .auipc := by
  rw [classify_of_opField (by rw [h]; decide) (by rw [h]; decide), h]; rfl

theorem classify_jal {w : Word} (h : opField w = 0b1101111#7) : classify w = .jal := by
  rw [classify_of_opField (by rw [h]; decide) (by rw [h]; decide), h]; rfl

theorem classify_jalr {w : Word} (h : opField w = 0b1100111#7) : classify w = .jalr := by
  rw [classify_of_opField (by rw [h]; decide) (by rw [h]; decide), h]; rfl

theorem classify_branch {w : Word} (h : opField w = 0b1100011#7) : classify w = classifyBranch (f3Field w) := by
  rw [classify_of_opField (by rw [h]; decide) (by rw [h]; decide), h]; rfl

theorem classify_load {w : Word} (h : opField w = 0b0000011#7) : classify w = classifyLoad (f3Field w) := by
  rw [classify_of_opField (by rw [h]; decide) (by rw [h]; decide), h]; rfl

theorem classify_store {w : Word} (h : opField w = 0b0100011#7) : classify w = classifyStore (f3Field w) := by
  rw [classify_of_opField (by rw [h]; decide) (by rw [h]; decide), h]; rfl

theorem classify_opImm {w : Word} (h : opField w = 0b0010011#7) : classify w = classifyOpImm (f3Field w) (f7Field w) := by
  rw [classify_of_opField (by rw [h]; decide) (by rw [h]; decide), h]; rfl

theorem classify_op {w : Word} (h : opField w = 0b0110011#7) : classify w = classifyOp (f3Field w) (f7Field w) := by
  rw [classify_of_opField (by rw [h]; decide) (by rw [h]; decide), h]; rfl

/-- A SYSTEM word with funct3 other than `000` is neither ECALL nor EBREAK (R98, R100). -/
theorem classify_system {w : Word} (h : opField w = 0b1110011#7) (h3 : f3Field w ≠ 0b000#3) :
    classify w = classifySystem (f3Field w) := by
  have he : w ≠ 0x00000073#32 := by rintro rfl; exact h3 (by decide)
  have hb : w ≠ 0x00100073#32 := by rintro rfl; exact h3 (by decide)
  have hi : w ≠ 0x0000100F#32 := by rintro rfl; exact absurd h (by decide)
  have hf : ¬(fmField w = 0b0000#4 ∧ lo20Field w = 0x0000F#20) := fun hf =>
    absurd (h.symm.trans (opField_of_lo20Field hf.2)) (by decide)
  simp only [classify, if_neg he, if_neg hb, if_neg hi, if_neg hf, h]
  rfl

/-- A FENCE word is none of the three whole words (R91, R100). -/
theorem classify_fence {w : Word} (hm : fmField w = 0b0000#4) (hl : lo20Field w = 0x0000F#20) : classify w = .fence := by
  have he : w ≠ 0x00000073#32 := by rintro rfl; exact absurd hl (by decide)
  have hb : w ≠ 0x00100073#32 := by rintro rfl; exact absurd hl (by decide)
  have hi : w ≠ 0x0000100F#32 := by rintro rfl; exact absurd hl (by decide)
  simp only [classify, if_neg he, if_neg hb, if_neg hi, if_pos (And.intro hm hl)]

/-! ## The kind of a decoded word -/

theorem kind_instrOf (k : Kind) (w : Word) : (instrOf k w).kind = k := by
  cases k <;> rfl

theorem kind_decodeWord (w : Word) : (decodeWord w).kind = classify w :=
  kind_instrOf (classify w) w

theorem wf_instrOf (k : Kind) (w : Word) : WellFormed (instrOf k w) := by
  have hB : evenBits (immBField w) = true := by
    simp only [evenBits, immBField_eq, BitVec.getLsbD_append]; simp
  have hJ : evenBits (immJField w) = true := by
    simp only [evenBits, immJField_eq, BitVec.getLsbD_append]; simp
  cases k <;> first | rfl | exact hB | exact hJ

theorem wf_decodeWord (w : Word) : WellFormed (decodeWord w) :=
  wf_instrOf (classify w) w

/-! ## The fields of an encoded word -/

@[simp] theorem opField_encodeR (f7 : BitVec 7) (f3 : BitVec 3) (op : BitVec 7) (rd rs1 rs2 : RegIdx) :
    opField (encodeR f7 f3 op rd rs1 rs2) = op := by
  apply BitVec.eq_of_getLsbD_eq
  intro i hi
  simp only [opField_eq, encodeR, BitVec.getLsbD_append, BitVec.getLsbD_extractLsb']
  interval_cases i <;> simp

@[simp] theorem f3Field_encodeR (f7 : BitVec 7) (f3 : BitVec 3) (op : BitVec 7) (rd rs1 rs2 : RegIdx) :
    f3Field (encodeR f7 f3 op rd rs1 rs2) = f3 := by
  apply BitVec.eq_of_getLsbD_eq
  intro i hi
  simp only [f3Field_eq, encodeR, BitVec.getLsbD_append, BitVec.getLsbD_extractLsb']
  interval_cases i <;> simp

@[simp] theorem f7Field_encodeR (f7 : BitVec 7) (f3 : BitVec 3) (op : BitVec 7) (rd rs1 rs2 : RegIdx) :
    f7Field (encodeR f7 f3 op rd rs1 rs2) = f7 := by
  apply BitVec.eq_of_getLsbD_eq
  intro i hi
  simp only [f7Field_eq, encodeR, BitVec.getLsbD_append, BitVec.getLsbD_extractLsb']
  interval_cases i <;> simp

@[simp] theorem rdField_encodeR (f7 : BitVec 7) (f3 : BitVec 3) (op : BitVec 7) (rd rs1 rs2 : RegIdx) :
    rdField (encodeR f7 f3 op rd rs1 rs2) = rd := by
  apply BitVec.eq_of_getLsbD_eq
  intro i hi
  simp only [rdField_eq, encodeR, BitVec.getLsbD_append, BitVec.getLsbD_extractLsb']
  interval_cases i <;> simp

@[simp] theorem rs1Field_encodeR (f7 : BitVec 7) (f3 : BitVec 3) (op : BitVec 7) (rd rs1 rs2 : RegIdx) :
    rs1Field (encodeR f7 f3 op rd rs1 rs2) = rs1 := by
  apply BitVec.eq_of_getLsbD_eq
  intro i hi
  simp only [rs1Field_eq, encodeR, BitVec.getLsbD_append, BitVec.getLsbD_extractLsb']
  interval_cases i <;> simp

@[simp] theorem rs2Field_encodeR (f7 : BitVec 7) (f3 : BitVec 3) (op : BitVec 7) (rd rs1 rs2 : RegIdx) :
    rs2Field (encodeR f7 f3 op rd rs1 rs2) = rs2 := by
  apply BitVec.eq_of_getLsbD_eq
  intro i hi
  simp only [rs2Field_eq, encodeR, BitVec.getLsbD_append, BitVec.getLsbD_extractLsb']
  interval_cases i <;> simp

@[simp] theorem opField_encodeI (f3 : BitVec 3) (op : BitVec 7) (rd rs1 : RegIdx) (imm : BitVec 12) :
    opField (encodeI f3 op rd rs1 imm) = op := by
  apply BitVec.eq_of_getLsbD_eq
  intro i hi
  simp only [opField_eq, encodeI, BitVec.getLsbD_append, BitVec.getLsbD_extractLsb']
  interval_cases i <;> simp

@[simp] theorem f3Field_encodeI (f3 : BitVec 3) (op : BitVec 7) (rd rs1 : RegIdx) (imm : BitVec 12) :
    f3Field (encodeI f3 op rd rs1 imm) = f3 := by
  apply BitVec.eq_of_getLsbD_eq
  intro i hi
  simp only [f3Field_eq, encodeI, BitVec.getLsbD_append, BitVec.getLsbD_extractLsb']
  interval_cases i <;> simp

@[simp] theorem rdField_encodeI (f3 : BitVec 3) (op : BitVec 7) (rd rs1 : RegIdx) (imm : BitVec 12) :
    rdField (encodeI f3 op rd rs1 imm) = rd := by
  apply BitVec.eq_of_getLsbD_eq
  intro i hi
  simp only [rdField_eq, encodeI, BitVec.getLsbD_append, BitVec.getLsbD_extractLsb']
  interval_cases i <;> simp

@[simp] theorem rs1Field_encodeI (f3 : BitVec 3) (op : BitVec 7) (rd rs1 : RegIdx) (imm : BitVec 12) :
    rs1Field (encodeI f3 op rd rs1 imm) = rs1 := by
  apply BitVec.eq_of_getLsbD_eq
  intro i hi
  simp only [rs1Field_eq, encodeI, BitVec.getLsbD_append, BitVec.getLsbD_extractLsb']
  interval_cases i <;> simp

@[simp] theorem immIField_encodeI (f3 : BitVec 3) (op : BitVec 7) (rd rs1 : RegIdx) (imm : BitVec 12) :
    immIField (encodeI f3 op rd rs1 imm) = imm := by
  apply BitVec.eq_of_getLsbD_eq
  intro i hi
  simp only [immIField_eq, encodeI, BitVec.getLsbD_append, BitVec.getLsbD_extractLsb']
  interval_cases i <;> simp

@[simp] theorem opField_encodeS (f3 : BitVec 3) (rs1 rs2 : RegIdx) (imm : BitVec 12) :
    opField (encodeS f3 rs1 rs2 imm) = 0b0100011#7 := by
  apply BitVec.eq_of_getLsbD_eq
  intro i hi
  simp only [opField_eq, encodeS, BitVec.getLsbD_append, BitVec.getLsbD_extractLsb']
  interval_cases i <;> simp

@[simp] theorem f3Field_encodeS (f3 : BitVec 3) (rs1 rs2 : RegIdx) (imm : BitVec 12) :
    f3Field (encodeS f3 rs1 rs2 imm) = f3 := by
  apply BitVec.eq_of_getLsbD_eq
  intro i hi
  simp only [f3Field_eq, encodeS, BitVec.getLsbD_append, BitVec.getLsbD_extractLsb']
  interval_cases i <;> simp

@[simp] theorem rs1Field_encodeS (f3 : BitVec 3) (rs1 rs2 : RegIdx) (imm : BitVec 12) :
    rs1Field (encodeS f3 rs1 rs2 imm) = rs1 := by
  apply BitVec.eq_of_getLsbD_eq
  intro i hi
  simp only [rs1Field_eq, encodeS, BitVec.getLsbD_append, BitVec.getLsbD_extractLsb']
  interval_cases i <;> simp

@[simp] theorem rs2Field_encodeS (f3 : BitVec 3) (rs1 rs2 : RegIdx) (imm : BitVec 12) :
    rs2Field (encodeS f3 rs1 rs2 imm) = rs2 := by
  apply BitVec.eq_of_getLsbD_eq
  intro i hi
  simp only [rs2Field_eq, encodeS, BitVec.getLsbD_append, BitVec.getLsbD_extractLsb']
  interval_cases i <;> simp

@[simp] theorem immSField_encodeS (f3 : BitVec 3) (rs1 rs2 : RegIdx) (imm : BitVec 12) :
    immSField (encodeS f3 rs1 rs2 imm) = imm := by
  apply BitVec.eq_of_getLsbD_eq
  intro i hi
  simp only [immSField_eq, encodeS, BitVec.getLsbD_append, BitVec.getLsbD_extractLsb']
  interval_cases i <;> simp

@[simp] theorem opField_encodeB (f3 : BitVec 3) (rs1 rs2 : RegIdx) (imm : BitVec 13) :
    opField (encodeB f3 rs1 rs2 imm) = 0b1100011#7 := by
  apply BitVec.eq_of_getLsbD_eq
  intro i hi
  simp only [opField_eq, encodeB, BitVec.getLsbD_append, BitVec.getLsbD_extractLsb']
  interval_cases i <;> simp

@[simp] theorem f3Field_encodeB (f3 : BitVec 3) (rs1 rs2 : RegIdx) (imm : BitVec 13) :
    f3Field (encodeB f3 rs1 rs2 imm) = f3 := by
  apply BitVec.eq_of_getLsbD_eq
  intro i hi
  simp only [f3Field_eq, encodeB, BitVec.getLsbD_append, BitVec.getLsbD_extractLsb']
  interval_cases i <;> simp

@[simp] theorem rs1Field_encodeB (f3 : BitVec 3) (rs1 rs2 : RegIdx) (imm : BitVec 13) :
    rs1Field (encodeB f3 rs1 rs2 imm) = rs1 := by
  apply BitVec.eq_of_getLsbD_eq
  intro i hi
  simp only [rs1Field_eq, encodeB, BitVec.getLsbD_append, BitVec.getLsbD_extractLsb']
  interval_cases i <;> simp

@[simp] theorem rs2Field_encodeB (f3 : BitVec 3) (rs1 rs2 : RegIdx) (imm : BitVec 13) :
    rs2Field (encodeB f3 rs1 rs2 imm) = rs2 := by
  apply BitVec.eq_of_getLsbD_eq
  intro i hi
  simp only [rs2Field_eq, encodeB, BitVec.getLsbD_append, BitVec.getLsbD_extractLsb']
  interval_cases i <;> simp

theorem immBField_encodeB (f3 : BitVec 3) (rs1 rs2 : RegIdx) {imm : BitVec 13} (h : evenBits imm = true) :
    immBField (encodeB f3 rs1 rs2 imm) = imm := by
  apply BitVec.eq_of_getLsbD_eq
  intro i hi
  simp only [immBField_eq, encodeB, BitVec.getLsbD_append, BitVec.getLsbD_extractLsb']
  interval_cases i <;> simp
  simpa [evenBits] using h

@[simp] theorem opField_encodeU (op : BitVec 7) (rd : RegIdx) (imm : BitVec 20) :
    opField (encodeU op rd imm) = op := by
  apply BitVec.eq_of_getLsbD_eq
  intro i hi
  simp only [opField_eq, encodeU, BitVec.getLsbD_append, BitVec.getLsbD_extractLsb']
  interval_cases i <;> simp

@[simp] theorem rdField_encodeU (op : BitVec 7) (rd : RegIdx) (imm : BitVec 20) :
    rdField (encodeU op rd imm) = rd := by
  apply BitVec.eq_of_getLsbD_eq
  intro i hi
  simp only [rdField_eq, encodeU, BitVec.getLsbD_append, BitVec.getLsbD_extractLsb']
  interval_cases i <;> simp

@[simp] theorem immUField_encodeU (op : BitVec 7) (rd : RegIdx) (imm : BitVec 20) :
    immUField (encodeU op rd imm) = imm := by
  apply BitVec.eq_of_getLsbD_eq
  intro i hi
  simp only [immUField_eq, encodeU, BitVec.getLsbD_append, BitVec.getLsbD_extractLsb']
  interval_cases i <;> simp

@[simp] theorem opField_encodeJ (rd : RegIdx) (imm : BitVec 21) :
    opField (encodeJ rd imm) = 0b1101111#7 := by
  apply BitVec.eq_of_getLsbD_eq
  intro i hi
  simp only [opField_eq, encodeJ, BitVec.getLsbD_append, BitVec.getLsbD_extractLsb']
  interval_cases i <;> simp

@[simp] theorem rdField_encodeJ (rd : RegIdx) (imm : BitVec 21) :
    rdField (encodeJ rd imm) = rd := by
  apply BitVec.eq_of_getLsbD_eq
  intro i hi
  simp only [rdField_eq, encodeJ, BitVec.getLsbD_append, BitVec.getLsbD_extractLsb']
  interval_cases i <;> simp

theorem immJField_encodeJ (rd : RegIdx) {imm : BitVec 21} (h : evenBits imm = true) :
    immJField (encodeJ rd imm) = imm := by
  apply BitVec.eq_of_getLsbD_eq
  intro i hi
  simp only [immJField_eq, encodeJ, BitVec.getLsbD_append, BitVec.getLsbD_extractLsb']
  interval_cases i <;> simp
  simpa [evenBits] using h

@[simp] theorem opField_encodeShift (f7 : BitVec 7) (f3 : BitVec 3) (rd rs1 : RegIdx) (shamt : BitVec 5) :
    opField (encodeShift f7 f3 rd rs1 shamt) = 0b0010011#7 := by
  apply BitVec.eq_of_getLsbD_eq
  intro i hi
  simp only [opField_eq, encodeShift, BitVec.getLsbD_append, BitVec.getLsbD_extractLsb']
  interval_cases i <;> simp

@[simp] theorem f3Field_encodeShift (f7 : BitVec 7) (f3 : BitVec 3) (rd rs1 : RegIdx) (shamt : BitVec 5) :
    f3Field (encodeShift f7 f3 rd rs1 shamt) = f3 := by
  apply BitVec.eq_of_getLsbD_eq
  intro i hi
  simp only [f3Field_eq, encodeShift, BitVec.getLsbD_append, BitVec.getLsbD_extractLsb']
  interval_cases i <;> simp

@[simp] theorem f7Field_encodeShift (f7 : BitVec 7) (f3 : BitVec 3) (rd rs1 : RegIdx) (shamt : BitVec 5) :
    f7Field (encodeShift f7 f3 rd rs1 shamt) = f7 := by
  apply BitVec.eq_of_getLsbD_eq
  intro i hi
  simp only [f7Field_eq, encodeShift, BitVec.getLsbD_append, BitVec.getLsbD_extractLsb']
  interval_cases i <;> simp

@[simp] theorem rdField_encodeShift (f7 : BitVec 7) (f3 : BitVec 3) (rd rs1 : RegIdx) (shamt : BitVec 5) :
    rdField (encodeShift f7 f3 rd rs1 shamt) = rd := by
  apply BitVec.eq_of_getLsbD_eq
  intro i hi
  simp only [rdField_eq, encodeShift, BitVec.getLsbD_append, BitVec.getLsbD_extractLsb']
  interval_cases i <;> simp

@[simp] theorem rs1Field_encodeShift (f7 : BitVec 7) (f3 : BitVec 3) (rd rs1 : RegIdx) (shamt : BitVec 5) :
    rs1Field (encodeShift f7 f3 rd rs1 shamt) = rs1 := by
  apply BitVec.eq_of_getLsbD_eq
  intro i hi
  simp only [rs1Field_eq, encodeShift, BitVec.getLsbD_append, BitVec.getLsbD_extractLsb']
  interval_cases i <;> simp

@[simp] theorem shamtField_encodeShift (f7 : BitVec 7) (f3 : BitVec 3) (rd rs1 : RegIdx) (shamt : BitVec 5) :
    shamtField (encodeShift f7 f3 rd rs1 shamt) = shamt := by
  apply BitVec.eq_of_getLsbD_eq
  intro i hi
  simp only [shamtField_eq, encodeShift, BitVec.getLsbD_append, BitVec.getLsbD_extractLsb']
  interval_cases i <;> simp

@[simp] theorem fmField_encodeFence (pred succ : BitVec 4) :
    fmField (encodeFence pred succ) = 0b0000#4 := by
  apply BitVec.eq_of_getLsbD_eq
  intro i hi
  simp only [fmField_eq, encodeFence, BitVec.getLsbD_append, BitVec.getLsbD_extractLsb']
  interval_cases i <;> simp

@[simp] theorem lo20Field_encodeFence (pred succ : BitVec 4) :
    lo20Field (encodeFence pred succ) = 0x0000F#20 := by
  apply BitVec.eq_of_getLsbD_eq
  intro i hi
  simp only [lo20Field_eq, encodeFence, BitVec.getLsbD_append, BitVec.getLsbD_extractLsb']
  interval_cases i <;> simp

@[simp] theorem predField_encodeFence (pred succ : BitVec 4) :
    predField (encodeFence pred succ) = pred := by
  apply BitVec.eq_of_getLsbD_eq
  intro i hi
  simp only [predField_eq, encodeFence, BitVec.getLsbD_append, BitVec.getLsbD_extractLsb']
  interval_cases i <;> simp

@[simp] theorem succField_encodeFence (pred succ : BitVec 4) :
    succField (encodeFence pred succ) = succ := by
  apply BitVec.eq_of_getLsbD_eq
  intro i hi
  simp only [succField_eq, encodeFence, BitVec.getLsbD_append, BitVec.getLsbD_extractLsb']
  interval_cases i <;> simp

@[simp] theorem opField_encodeCsr (f3 : BitVec 3) (rd : RegIdx) (csr : BitVec 12) (source : BitVec 5) :
    opField (encodeCsr f3 rd csr source) = 0b1110011#7 := by
  apply BitVec.eq_of_getLsbD_eq
  intro i hi
  simp only [opField_eq, encodeCsr, BitVec.getLsbD_append, BitVec.getLsbD_extractLsb']
  interval_cases i <;> simp

@[simp] theorem f3Field_encodeCsr (f3 : BitVec 3) (rd : RegIdx) (csr : BitVec 12) (source : BitVec 5) :
    f3Field (encodeCsr f3 rd csr source) = f3 := by
  apply BitVec.eq_of_getLsbD_eq
  intro i hi
  simp only [f3Field_eq, encodeCsr, BitVec.getLsbD_append, BitVec.getLsbD_extractLsb']
  interval_cases i <;> simp

@[simp] theorem rdField_encodeCsr (f3 : BitVec 3) (rd : RegIdx) (csr : BitVec 12) (source : BitVec 5) :
    rdField (encodeCsr f3 rd csr source) = rd := by
  apply BitVec.eq_of_getLsbD_eq
  intro i hi
  simp only [rdField_eq, encodeCsr, BitVec.getLsbD_append, BitVec.getLsbD_extractLsb']
  interval_cases i <;> simp

@[simp] theorem csrField_encodeCsr (f3 : BitVec 3) (rd : RegIdx) (csr : BitVec 12) (source : BitVec 5) :
    csrField (encodeCsr f3 rd csr source) = csr := by
  apply BitVec.eq_of_getLsbD_eq
  intro i hi
  simp only [csrField_eq, encodeCsr, BitVec.getLsbD_append, BitVec.getLsbD_extractLsb']
  interval_cases i <;> simp

@[simp] theorem rs1Field_encodeCsr (f3 : BitVec 3) (rd : RegIdx) (csr : BitVec 12) (source : BitVec 5) :
    rs1Field (encodeCsr f3 rd csr source) = source := by
  apply BitVec.eq_of_getLsbD_eq
  intro i hi
  simp only [rs1Field_eq, encodeCsr, BitVec.getLsbD_append, BitVec.getLsbD_extractLsb']
  interval_cases i <;> simp

@[simp] theorem zimmField_encodeCsr (f3 : BitVec 3) (rd : RegIdx) (csr : BitVec 12) (source : BitVec 5) :
    zimmField (encodeCsr f3 rd csr source) = source := by
  apply BitVec.eq_of_getLsbD_eq
  intro i hi
  simp only [zimmField_eq, encodeCsr, BitVec.getLsbD_append, BitVec.getLsbD_extractLsb']
  interval_cases i <;> simp

end Sys2Proof
end

