-- ==== Sys2Proof/Laws/State.lean ====
section
/-! SUPPORT. What each update of the state does to each field. -/

namespace Sys2Proof.Machine

variable (s : State)

/-! ### `present` -/

@[simp] theorem State.present_params (w : Word) : (s.present w).params = s.params := rfl
@[simp] theorem State.present_insn (w : Word) : (s.present w).insn = w := rfl
@[simp] theorem State.present_out (w : Word) : (s.present w).out = s.out := rfl
@[simp] theorem State.present_mem (w : Word) : (s.present w).mem = s.mem := rfl
@[simp] theorem State.present_nWords (w : Word) : (s.present w).nWords = s.nWords := rfl
@[simp] theorem State.present_base (w : Word) : (s.present w).base = s.base := rfl
@[simp] theorem State.present_symbols (w : Word) : (s.present w).symbols = s.symbols := rfl
@[simp] theorem State.present_defect (w : Word) : (s.present w).defect = s.defect := rfl
@[simp] theorem State.present_index (w : Word) : (s.present w).index = s.index := rfl
@[simp] theorem State.present_sink (w : Word) : (s.present w).sink = s.sink := rfl

/-! ### `drive` -/

@[simp] theorem State.drive_params (o : Outputs) : (s.drive o).params = s.params := rfl
@[simp] theorem State.drive_insn (o : Outputs) : (s.drive o).insn = s.insn := rfl
@[simp] theorem State.drive_out (o : Outputs) : (s.drive o).out = o := rfl
@[simp] theorem State.drive_mem (o : Outputs) : (s.drive o).mem = s.mem := rfl
@[simp] theorem State.drive_nWords (o : Outputs) : (s.drive o).nWords = s.nWords := rfl
@[simp] theorem State.drive_base (o : Outputs) : (s.drive o).base = s.base := rfl
@[simp] theorem State.drive_symbols (o : Outputs) : (s.drive o).symbols = s.symbols := rfl
@[simp] theorem State.drive_defect (o : Outputs) : (s.drive o).defect = s.defect := rfl
@[simp] theorem State.drive_index (o : Outputs) : (s.drive o).index = s.index := rfl
@[simp] theorem State.drive_sink (o : Outputs) : (s.drive o).sink = s.sink := rfl

/-! ### `emit` -/

@[simp] theorem State.emit_params (l : Text) : (s.emit l).params = s.params := rfl
@[simp] theorem State.emit_insn (l : Text) : (s.emit l).insn = s.insn := rfl
@[simp] theorem State.emit_out (l : Text) : (s.emit l).out = s.out := rfl
@[simp] theorem State.emit_mem (l : Text) : (s.emit l).mem = s.mem := rfl
@[simp] theorem State.emit_nWords (l : Text) : (s.emit l).nWords = s.nWords := rfl
@[simp] theorem State.emit_base (l : Text) : (s.emit l).base = s.base := rfl
@[simp] theorem State.emit_symbols (l : Text) : (s.emit l).symbols = s.symbols := rfl
@[simp] theorem State.emit_defect (l : Text) : (s.emit l).defect = s.defect := rfl
@[simp] theorem State.emit_index (l : Text) : (s.emit l).index = s.index := rfl
@[simp] theorem State.emit_sink (l : Text) : (s.emit l).sink = s.sink ++ [l] := rfl

/-! ### `advance` -/

@[simp] theorem State.advance_params : (s.advance).params = s.params := rfl
@[simp] theorem State.advance_insn : (s.advance).insn = s.insn := rfl
@[simp] theorem State.advance_out : (s.advance).out = s.out := rfl
@[simp] theorem State.advance_mem : (s.advance).mem = s.mem := rfl
@[simp] theorem State.advance_nWords : (s.advance).nWords = s.nWords := rfl
@[simp] theorem State.advance_base : (s.advance).base = s.base := rfl
@[simp] theorem State.advance_symbols : (s.advance).symbols = s.symbols := rfl
@[simp] theorem State.advance_defect : (s.advance).defect = s.defect := rfl
@[simp] theorem State.advance_index : (s.advance).index = s.index + 1 := rfl
@[simp] theorem State.advance_sink : (s.advance).sink = s.sink := rfl

/-! ### `placeWord` -/

@[simp] theorem State.placeWord_params (w : Word) : (s.placeWord w).params = s.params := rfl
@[simp] theorem State.placeWord_insn (w : Word) : (s.placeWord w).insn = s.insn := rfl
@[simp] theorem State.placeWord_out (w : Word) : (s.placeWord w).out = s.out := rfl
@[simp] theorem State.placeWord_mem (w : Word) : (s.placeWord w).mem = Memory.writeBytes s.mem (4 * s.index) (bytesOfWord w) := rfl
@[simp] theorem State.placeWord_nWords (w : Word) : (s.placeWord w).nWords = max s.nWords (s.index + 1) := rfl
@[simp] theorem State.placeWord_base (w : Word) : (s.placeWord w).base = s.base := rfl
@[simp] theorem State.placeWord_symbols (w : Word) : (s.placeWord w).symbols = s.symbols := rfl
@[simp] theorem State.placeWord_defect (w : Word) : (s.placeWord w).defect = none := rfl
@[simp] theorem State.placeWord_index (w : Word) : (s.placeWord w).index = s.index := rfl
@[simp] theorem State.placeWord_sink (w : Word) : (s.placeWord w).sink = s.sink := rfl

/-! ### `validateObject` -/

@[simp] theorem State.validateObject_params (o : ObjectFile) : (s.validateObject o).params = s.params := rfl
@[simp] theorem State.validateObject_insn (o : ObjectFile) : (s.validateObject o).insn = s.insn := rfl
@[simp] theorem State.validateObject_out (o : ObjectFile) : (s.validateObject o).out = s.out := rfl
@[simp] theorem State.validateObject_mem (o : ObjectFile) : (s.validateObject o).mem = [] := rfl
@[simp] theorem State.validateObject_nWords (o : ObjectFile) : (s.validateObject o).nWords = 0 := rfl
@[simp] theorem State.validateObject_base (o : ObjectFile) : (s.validateObject o).base = s.base := rfl
@[simp] theorem State.validateObject_symbols (o : ObjectFile) : (s.validateObject o).symbols = [] := rfl
@[simp] theorem State.validateObject_defect (o : ObjectFile) : (s.validateObject o).defect = o.defect := rfl
@[simp] theorem State.validateObject_index (o : ObjectFile) : (s.validateObject o).index = 0 := rfl
@[simp] theorem State.validateObject_sink (o : ObjectFile) : (s.validateObject o).sink = [] := rfl

/-! ### `loadObject` -/

@[simp] theorem State.loadObject_params (o : ObjectFile) : (s.loadObject o).params = s.params := rfl
@[simp] theorem State.loadObject_insn (o : ObjectFile) : (s.loadObject o).insn = s.insn := rfl
@[simp] theorem State.loadObject_out (o : ObjectFile) : (s.loadObject o).out = s.out := rfl
@[simp] theorem State.loadObject_mem (o : ObjectFile) : (s.loadObject o).mem =
      Memory.writeBytes [] 0 (o.codeWords.flatMap bytesOfWord) := rfl
@[simp] theorem State.loadObject_nWords (o : ObjectFile) : (s.loadObject o).nWords = o.codeWords.length := rfl
@[simp] theorem State.loadObject_base (o : ObjectFile) : (s.loadObject o).base = o.base := rfl
@[simp] theorem State.loadObject_symbols (o : ObjectFile) : (s.loadObject o).symbols = o.symbols.map resolveSymbol := rfl
@[simp] theorem State.loadObject_defect (o : ObjectFile) : (s.loadObject o).defect = s.defect := rfl
@[simp] theorem State.loadObject_index (o : ObjectFile) : (s.loadObject o).index = s.index := rfl
@[simp] theorem State.loadObject_sink (o : ObjectFile) : (s.loadObject o).sink = s.sink := rfl

/-! ### `fixParameters` -/

@[simp] theorem State.fixParameters_params (p : Params) : (s.fixParameters p).params = p := rfl
@[simp] theorem State.fixParameters_insn (p : Params) : (s.fixParameters p).insn = s.insn := rfl
@[simp] theorem State.fixParameters_out (p : Params) : (s.fixParameters p).out = s.out := rfl
@[simp] theorem State.fixParameters_mem (p : Params) : (s.fixParameters p).mem = s.mem := rfl
@[simp] theorem State.fixParameters_nWords (p : Params) : (s.fixParameters p).nWords = s.nWords := rfl
@[simp] theorem State.fixParameters_base (p : Params) : (s.fixParameters p).base = s.base := rfl
@[simp] theorem State.fixParameters_symbols (p : Params) : (s.fixParameters p).symbols = s.symbols := rfl
@[simp] theorem State.fixParameters_defect (p : Params) : (s.fixParameters p).defect = s.defect := rfl
@[simp] theorem State.fixParameters_index (p : Params) : (s.fixParameters p).index = s.index := rfl
@[simp] theorem State.fixParameters_sink (p : Params) : (s.fixParameters p).sink = s.sink := rfl

/-! ### `handOver`: what a host does with a rejected and with an accepted object -/

theorem State.handOver_rejected {o : ObjectFile} {d : ObjectDefect} (h : o.defect = some d) (p : Params) :
    s.handOver o p = s.validateObject o := by
  rw [State.handOver, h]

theorem State.handOver_accepted {o : ObjectFile} (h : o.defect = none) (p : Params) :
    s.handOver o p = ((s.validateObject o).loadObject o).fixParameters p := by
  rw [State.handOver, h]

end Sys2Proof.Machine
end

