-- ==== Sys2Proof/Laws/Memory.lean ====
section
/-! SUPPORT. The code buffer: a byte reads back where it was put, nothing else changes, and the canonical form is
kept by every operation. -/

namespace Sys2Proof.Machine

theorem Memory.read_write_same (m : List Host.Cell) (a : Nat) (b : Byte) :
    Memory.read (Memory.write m a b) a = some b := by
  induction m with
  | nil => simp [Memory.write, Memory.read]
  | cons c rest ih =>
    by_cases hlt : a < c.1
    · simp [Memory.write, Memory.read, hlt]
    · by_cases heq : a = c.1
      · simp [Memory.write, Memory.read, heq]
      · simp [Memory.write, Memory.read, hlt, heq, Ne.symm heq, ih]

theorem Memory.read_write_other (m : List Host.Cell) {a x : Nat} (b : Byte) (h : x ≠ a) :
    Memory.read (Memory.write m a b) x = Memory.read m x := by
  induction m with
  | nil => simp [Memory.write, Memory.read, Ne.symm h]
  | cons c rest ih =>
    by_cases hlt : a < c.1
    · simp [Memory.write, Memory.read, hlt, Ne.symm h]
    · by_cases heq : a = c.1
      · simp [Memory.write, Memory.read, heq, Ne.symm (heq ▸ h)]
      · simp [Memory.write, Memory.read, hlt, heq, ih]

/-- A cell of the memory after a write is the cell written or a cell of the memory before. -/
theorem Memory.mem_write {m : List Host.Cell} {a : Nat} {b : Byte} {c : Host.Cell} (h : c ∈ Memory.write m a b) :
    c = (a, b) ∨ c ∈ m := by
  induction m with
  | nil => simpa [Memory.write] using h
  | cons d rest ih =>
    simp only [Memory.write] at h
    split at h
    · simpa using h
    · split at h
      · rcases List.mem_cons.mp h with rfl | h
        · exact .inl rfl
        · exact .inr (List.mem_cons_of_mem _ h)
      · rcases List.mem_cons.mp h with rfl | h
        · exact .inr List.mem_cons_self
        · exact (ih h).imp_right (List.mem_cons_of_mem _)

theorem Memory.wf_write {m : List Host.Cell} (h : Memory.wf m) (a : Nat) (b : Byte) : Memory.wf (Memory.write m a b) := by
  induction m with
  | nil => simp [Memory.write, Memory.wf]
  | cons c rest ih =>
    have hrest : ∀ d ∈ rest, c.1 < d.1 := (List.pairwise_cons.mp h).1
    simp only [Memory.write]
    split
    · rename_i hlt
      refine List.pairwise_cons.mpr ⟨fun d hd => ?_, h⟩
      rcases List.mem_cons.mp hd with rfl | hd
      · exact hlt
      · exact Nat.lt_trans hlt (hrest d hd)
    · split
      · rename_i heq
        exact List.pairwise_cons.mpr ⟨fun d hd => heq ▸ hrest d hd, (List.pairwise_cons.mp h).2⟩
      · rename_i hlt hne
        refine List.pairwise_cons.mpr ⟨fun d hd => ?_, ih (List.pairwise_cons.mp h).2⟩
        rcases Memory.mem_write hd with rfl | hd
        · exact Nat.lt_of_le_of_ne (Nat.le_of_not_lt hlt) (Ne.symm hne)
        · exact hrest d hd

theorem Memory.wf_writeBytes {m : List Host.Cell} (h : Memory.wf m) (a : Nat) (bs : List Byte) :
    Memory.wf (Memory.writeBytes m a bs) := by
  induction bs generalizing m a with
  | nil => exact h
  | cons b rest ih => exact ih (Memory.wf_write h a b) (a + 1)

theorem Memory.read_writeBytes_outside (m : List Host.Cell) {a x : Nat} (bs : List Byte)
    (h : x < a ∨ a + bs.length ≤ x) : Memory.read (Memory.writeBytes m a bs) x = Memory.read m x := by
  induction bs generalizing m a with
  | nil => rfl
  | cons b rest ih =>
    simp only [List.length_cons] at h
    rw [Memory.writeBytes, ih _ (by omega), Memory.read_write_other _ _ (by omega)]

theorem Memory.read_writeBytes_inside (m : List Host.Cell) (a : Nat) (bs : List Byte) {k : Nat} (h : k < bs.length) :
    Memory.read (Memory.writeBytes m a bs) (a + k) = some bs[k] := by
  induction bs generalizing m a k with
  | nil => simp at h
  | cons b rest ih =>
    rw [Memory.writeBytes]
    cases k with
    | zero => simpa using (Memory.read_writeBytes_outside _ rest (by omega)).trans (Memory.read_write_same m a b)
    | succ j =>
      have := ih (Memory.write m a b) (a + 1) (k := j) (by simpa using h)
      simpa [Nat.add_assoc, Nat.add_comm 1] using this

/-- The bytes of a word assemble to the word (R42). -/
theorem wordOfBytes_bytesOfWord (w : Word) :
    wordOfBytes (w.extractLsb' 0 8) (w.extractLsb' 8 8) (w.extractLsb' 16 8) (w.extractLsb' 24 8) = w := by
  apply BitVec.eq_of_getLsbD_eq
  intro i hi
  simp only [wordOfBytes, BitVec.getLsbD_append, BitVec.getLsbD_extractLsb']
  interval_cases i <;> simp

/-- The word placed for the next step is the word the next step feeds. -/
theorem State.nextWord_placeWord (s : State) (w : Word) : (s.placeWord w).nextWord = some w := by
  have byteAt (k : Nat) (h : k < 4) :
      Memory.read (s.placeWord w).mem (4 * s.index + k) = some ((bytesOfWord w)[k]'(by simpa [bytesOfWord] using h)) :=
    Memory.read_writeBytes_inside s.mem (4 * s.index) (bytesOfWord w) _
  have b0 := byteAt 0 (by omega)
  have b1 := byteAt 1 (by omega)
  have b2 := byteAt 2 (by omega)
  have b3 := byteAt 3 (by omega)
  simp only [Nat.add_zero] at b0
  simp [State.nextWord, Memory.readWord, -State.placeWord_mem, b0, b1, b2, b3, bytesOfWord, wordOfBytes_bytesOfWord]

theorem State.wf_placeWord {s : State} (h : Memory.wf s.mem) (w : Word) : Memory.wf (s.placeWord w).mem :=
  Memory.wf_writeBytes h _ _

theorem State.wf_handOver (s : State) (o : ObjectFile) (p : Params) : Memory.wf (s.handOver o p).mem := by
  cases h : o.defect with
  | some d => exact s.handOver_rejected h p ▸ List.Pairwise.nil
  | none => exact s.handOver_accepted h p ▸ Memory.wf_writeBytes List.Pairwise.nil _ _

theorem State.wf_reset : Memory.wf State.reset.mem :=
  List.Pairwise.nil

end Sys2Proof.Machine
end

