-- ==== Sys2Proof/Laws/Exec.lean ====
section
/-! SUPPORT. Everything an instruction and a step can do, said once: every instruction delivers its record, and a step
refuses, idles or runs the decoded word. -/

namespace Sys2Proof.Machine

/-- The operand record of an instruction in a mode, as its meaning delivers it. -/
def operandsOf (m : ImmMode) : Instr → Operands
  | .lui rd imm => .u rd (immU m imm)
  | .auipc rd imm => .u rd (immU m imm)
  | .jal rd imm => .j rd (immJ m imm)
  | .jalr rd rs1 imm => .i rd rs1 (immI imm)
  | .beq rs1 rs2 imm => .b rs1 rs2 (immB m imm)
  | .bne rs1 rs2 imm => .b rs1 rs2 (immB m imm)
  | .blt rs1 rs2 imm => .b rs1 rs2 (immB m imm)
  | .bge rs1 rs2 imm => .b rs1 rs2 (immB m imm)
  | .bltu rs1 rs2 imm => .b rs1 rs2 (immB m imm)
  | .bgeu rs1 rs2 imm => .b rs1 rs2 (immB m imm)
  | .lb rd rs1 imm => .i rd rs1 (immI imm)
  | .lh rd rs1 imm => .i rd rs1 (immI imm)
  | .lw rd rs1 imm => .i rd rs1 (immI imm)
  | .lbu rd rs1 imm => .i rd rs1 (immI imm)
  | .lhu rd rs1 imm => .i rd rs1 (immI imm)
  | .sb rs1 rs2 imm => .s rs1 rs2 (immS imm)
  | .sh rs1 rs2 imm => .s rs1 rs2 (immS imm)
  | .sw rs1 rs2 imm => .s rs1 rs2 (immS imm)
  | .addi rd rs1 imm => .i rd rs1 (immI imm)
  | .slti rd rs1 imm => .i rd rs1 (immI imm)
  | .sltiu rd rs1 imm => .i rd rs1 (immISltiu m imm)
  | .xori rd rs1 imm => .i rd rs1 (immI imm)
  | .ori rd rs1 imm => .i rd rs1 (immI imm)
  | .andi rd rs1 imm => .i rd rs1 (immI imm)
  | .slli rd rs1 shamt => .shift rd rs1 shamt
  | .srli rd rs1 shamt => .shift rd rs1 shamt
  | .srai rd rs1 shamt => .shift rd rs1 shamt
  | .add rd rs1 rs2 => .r rd rs1 rs2
  | .sub rd rs1 rs2 => .r rd rs1 rs2
  | .sll rd rs1 rs2 => .r rd rs1 rs2
  | .slt rd rs1 rs2 => .r rd rs1 rs2
  | .sltu rd rs1 rs2 => .r rd rs1 rs2
  | .xor rd rs1 rs2 => .r rd rs1 rs2
  | .srl rd rs1 rs2 => .r rd rs1 rs2
  | .sra rd rs1 rs2 => .r rd rs1 rs2
  | .or rd rs1 rs2 => .r rd rs1 rs2
  | .and rd rs1 rs2 => .r rd rs1 rs2
  | .mul rd rs1 rs2 => .r rd rs1 rs2
  | .mulh rd rs1 rs2 => .r rd rs1 rs2
  | .mulhsu rd rs1 rs2 => .r rd rs1 rs2
  | .mulhu rd rs1 rs2 => .r rd rs1 rs2
  | .div rd rs1 rs2 => .r rd rs1 rs2
  | .divu rd rs1 rs2 => .r rd rs1 rs2
  | .rem rd rs1 rs2 => .r rd rs1 rs2
  | .remu rd rs1 rs2 => .r rd rs1 rs2
  | .fence pred succ => .fence pred succ
  | .fencei => .none
  | .ecall => .none
  | .ebreak => .none
  | .csrrw rd csr rs1 => .csr rd csr rs1
  | .csrrs rd csr rs1 => .csr rd csr rs1
  | .csrrc rd csr rs1 => .csr rd csr rs1
  | .csrrwi rd csr zimm => .csri rd csr zimm
  | .csrrsi rd csr zimm => .csri rd csr zimm
  | .csrrci rd csr zimm => .csri rd csr zimm
  | .unknown => .unknown

/-- One lemma for all meanings: the instruction's kind and operands are delivered. -/
theorem exec_eq_deliver (i : Instr) (s : State) : exec i s = deliver i.kind (operandsOf s.params.immMode i) s := by
  cases i <;> rfl

/-- The format a record is delivered in is the format of its kind (R110). -/
theorem formatOf_operandsOf (m : ImmMode) (i : Instr) : formatOf (operandsOf m i) = kindFormat i.kind := by
  cases i <;> rfl

/-- What delivering a record leaves in the next state. -/
theorem deliver_spec {k : Kind} {ops : Operands} {s t : State} (h : deliver k ops s = .next t) :
    t.out = outputs k ops ∧ t.sink = s.sink ++ [s.line k ops] ∧ t.index = s.index + 1 ∧
      t.params = s.params ∧ t.insn = s.insn ∧ t.mem = s.mem ∧ t.nWords = s.nWords ∧ t.base = s.base ∧
      t.symbols = s.symbols ∧ t.defect = s.defect := by
  cases h
  simp

/-- What a step can do: it refuses a rejected object, idles after the last word, or executes the decoded word; it
faults only where the code buffer lacks a byte of the word. -/
theorem step_cases (s : State) :
    (∃ d, s.defect = some d ∧ step s = .refused (.objectRejected d)) ∨
    (s.defect = none ∧ s.nWords ≤ s.index ∧ step s = .next s) ∨
    (s.defect = none ∧ s.index < s.nWords ∧ s.nextWord = none ∧ step s = .fault .codeByteAbsent) ∨
    (∃ w, s.defect = none ∧ s.index < s.nWords ∧ s.nextWord = some w ∧
      step s = exec (decodeWord w) (s.present w)) := by
  unfold step
  cases hd : s.defect with
  | some d => exact .inl ⟨d, rfl, rfl⟩
  | none =>
    by_cases hi : s.index < s.nWords
    · cases hw : s.nextWord with
      | none => exact .inr (.inr (.inl ⟨rfl, hi, rfl, by simp [hi]⟩))
      | some w => exact .inr (.inr (.inr ⟨w, rfl, hi, rfl, by simp [hi]⟩))
    · exact .inr (.inl ⟨rfl, Nat.le_of_not_lt hi, by simp [hi]⟩)

/-- A state with a table word placed runs exactly that word in its next step. -/
theorem step_withFetchWord (s : State) (nbits w : Nat) :
    step (s.withFetchWord nbits w) =
      exec (decodeWord (BitVec.ofNat 32 (w % 2 ^ nbits)))
        ((s.withFetchWord nbits w).present (BitVec.ofNat 32 (w % 2 ^ nbits))) := by
  have hw := State.nextWord_placeWord s (BitVec.ofNat 32 (w % 2 ^ nbits))
  have hi : s.index < max s.nWords (s.index + 1) := Nat.lt_of_lt_of_le (Nat.lt_succ_self _) (Nat.le_max_right _ _)
  simp [step, State.withFetchWord, hw, hi]

end Sys2Proof.Machine
end

