-- ==== Sys2Proof/Laws/Exhibit.lean ====
section
/-! SUPPORT. The exhibit's numbers are the decoder's fields: a bit range as a number, and the assembled immediates of
the S, B and J formats. -/

namespace Sys2Proof.Machine

theorem bits_eq (w : Word) (hi lo : Nat) : bits w hi lo = (w.extractLsb' lo (hi - lo + 1)).toNat := by
  simp [bits, BitVec.extractLsb'_toNat, Nat.shiftRight_eq_div_pow]

theorem bits_lt (w : Word) (hi lo : Nat) : bits w hi lo < 2 ^ (hi - lo + 1) := by
  rw [bits_eq]
  exact BitVec.isLt _

theorem exhibitImmS_eq (w : Word) : exhibitImmS w = (immSField w).toNat := by
  simp only [exhibitImmS, bits_eq, immSField_eq, BitVec.toNat_append]

theorem exhibitImmB_eq (w : Word) : exhibitImmB w = (immBField w).toNat := by
  simp only [exhibitImmB, bits_eq, immBField_eq, BitVec.toNat_append]
  simp only [Nat.shiftLeft_or_distrib, ← Nat.shiftLeft_add]
  simp

theorem exhibitImmJ_eq (w : Word) : exhibitImmJ w = (immJField w).toNat := by
  simp only [exhibitImmJ, bits_eq, immJField_eq, BitVec.toNat_append]
  simp only [Nat.shiftLeft_or_distrib, ← Nat.shiftLeft_add]
  simp

end Sys2Proof.Machine
end

