-- ==== Sys2Proof/Laws/PerInstr.lean ====
section
/-! SUPPORT. Per instruction: the word the encoder writes is classified as the instruction's own kind, so no two
encodings are confused. -/

namespace Sys2Proof.Laws.EncodeClassified

/-- The encoder's word of the instruction has the instruction's kind. -/
def Statement (i : Instr) : Prop :=
  classify (encode i) = i.kind

theorem lui (rd : RegIdx) (imm : BitVec 20) : Statement (.lui rd imm) :=
  classify_lui (opField_encodeU ..)

theorem auipc (rd : RegIdx) (imm : BitVec 20) : Statement (.auipc rd imm) :=
  classify_auipc (opField_encodeU ..)

theorem jal (rd : RegIdx) (imm : BitVec 21) : Statement (.jal rd imm) :=
  classify_jal (opField_encodeJ ..)

theorem jalr (rd rs1 : RegIdx) (imm : BitVec 12) : Statement (.jalr rd rs1 imm) :=
  classify_jalr (opField_encodeI ..)

theorem beq (rs1 rs2 : RegIdx) (imm : BitVec 13) : Statement (.beq rs1 rs2 imm) :=
  (classify_branch (opField_encodeB ..)).trans (by rw [f3Field_encodeB]; rfl)

theorem bne (rs1 rs2 : RegIdx) (imm : BitVec 13) : Statement (.bne rs1 rs2 imm) :=
  (classify_branch (opField_encodeB ..)).trans (by rw [f3Field_encodeB]; rfl)

theorem blt (rs1 rs2 : RegIdx) (imm : BitVec 13) : Statement (.blt rs1 rs2 imm) :=
  (classify_branch (opField_encodeB ..)).trans (by rw [f3Field_encodeB]; rfl)

theorem bge (rs1 rs2 : RegIdx) (imm : BitVec 13) : Statement (.bge rs1 rs2 imm) :=
  (classify_branch (opField_encodeB ..)).trans (by rw [f3Field_encodeB]; rfl)

theorem bltu (rs1 rs2 : RegIdx) (imm : BitVec 13) : Statement (.bltu rs1 rs2 imm) :=
  (classify_branch (opField_encodeB ..)).trans (by rw [f3Field_encodeB]; rfl)

theorem bgeu (rs1 rs2 : RegIdx) (imm : BitVec 13) : Statement (.bgeu rs1 rs2 imm) :=
  (classify_branch (opField_encodeB ..)).trans (by rw [f3Field_encodeB]; rfl)

theorem lb (rd rs1 : RegIdx) (imm : BitVec 12) : Statement (.lb rd rs1 imm) :=
  (classify_load (opField_encodeI ..)).trans (by rw [f3Field_encodeI]; rfl)

theorem lh (rd rs1 : RegIdx) (imm : BitVec 12) : Statement (.lh rd rs1 imm) :=
  (classify_load (opField_encodeI ..)).trans (by rw [f3Field_encodeI]; rfl)

theorem lw (rd rs1 : RegIdx) (imm : BitVec 12) : Statement (.lw rd rs1 imm) :=
  (classify_load (opField_encodeI ..)).trans (by rw [f3Field_encodeI]; rfl)

theorem lbu (rd rs1 : RegIdx) (imm : BitVec 12) : Statement (.lbu rd rs1 imm) :=
  (classify_load (opField_encodeI ..)).trans (by rw [f3Field_encodeI]; rfl)

theorem lhu (rd rs1 : RegIdx) (imm : BitVec 12) : Statement (.lhu rd rs1 imm) :=
  (classify_load (opField_encodeI ..)).trans (by rw [f3Field_encodeI]; rfl)

theorem sb (rs1 rs2 : RegIdx) (imm : BitVec 12) : Statement (.sb rs1 rs2 imm) :=
  (classify_store (opField_encodeS ..)).trans (by rw [f3Field_encodeS]; rfl)

theorem sh (rs1 rs2 : RegIdx) (imm : BitVec 12) : Statement (.sh rs1 rs2 imm) :=
  (classify_store (opField_encodeS ..)).trans (by rw [f3Field_encodeS]; rfl)

theorem sw (rs1 rs2 : RegIdx) (imm : BitVec 12) : Statement (.sw rs1 rs2 imm) :=
  (classify_store (opField_encodeS ..)).trans (by rw [f3Field_encodeS]; rfl)

theorem addi (rd rs1 : RegIdx) (imm : BitVec 12) : Statement (.addi rd rs1 imm) :=
  (classify_opImm (opField_encodeI ..)).trans (by rw [f3Field_encodeI]; rfl)

theorem slti (rd rs1 : RegIdx) (imm : BitVec 12) : Statement (.slti rd rs1 imm) :=
  (classify_opImm (opField_encodeI ..)).trans (by rw [f3Field_encodeI]; rfl)

theorem sltiu (rd rs1 : RegIdx) (imm : BitVec 12) : Statement (.sltiu rd rs1 imm) :=
  (classify_opImm (opField_encodeI ..)).trans (by rw [f3Field_encodeI]; rfl)

theorem xori (rd rs1 : RegIdx) (imm : BitVec 12) : Statement (.xori rd rs1 imm) :=
  (classify_opImm (opField_encodeI ..)).trans (by rw [f3Field_encodeI]; rfl)

theorem ori (rd rs1 : RegIdx) (imm : BitVec 12) : Statement (.ori rd rs1 imm) :=
  (classify_opImm (opField_encodeI ..)).trans (by rw [f3Field_encodeI]; rfl)

theorem andi (rd rs1 : RegIdx) (imm : BitVec 12) : Statement (.andi rd rs1 imm) :=
  (classify_opImm (opField_encodeI ..)).trans (by rw [f3Field_encodeI]; rfl)

theorem slli (rd rs1 : RegIdx) (shamt : BitVec 5) : Statement (.slli rd rs1 shamt) :=
  (classify_opImm (opField_encodeShift ..)).trans (by rw [f3Field_encodeShift, f7Field_encodeShift]; rfl)

theorem srli (rd rs1 : RegIdx) (shamt : BitVec 5) : Statement (.srli rd rs1 shamt) :=
  (classify_opImm (opField_encodeShift ..)).trans (by rw [f3Field_encodeShift, f7Field_encodeShift]; rfl)

theorem srai (rd rs1 : RegIdx) (shamt : BitVec 5) : Statement (.srai rd rs1 shamt) :=
  (classify_opImm (opField_encodeShift ..)).trans (by rw [f3Field_encodeShift, f7Field_encodeShift]; rfl)

theorem add (rd rs1 rs2 : RegIdx) : Statement (.add rd rs1 rs2) :=
  (classify_op (opField_encodeR ..)).trans (by rw [f3Field_encodeR, f7Field_encodeR]; rfl)

theorem sub (rd rs1 rs2 : RegIdx) : Statement (.sub rd rs1 rs2) :=
  (classify_op (opField_encodeR ..)).trans (by rw [f3Field_encodeR, f7Field_encodeR]; rfl)

theorem sll (rd rs1 rs2 : RegIdx) : Statement (.sll rd rs1 rs2) :=
  (classify_op (opField_encodeR ..)).trans (by rw [f3Field_encodeR, f7Field_encodeR]; rfl)

theorem slt (rd rs1 rs2 : RegIdx) : Statement (.slt rd rs1 rs2) :=
  (classify_op (opField_encodeR ..)).trans (by rw [f3Field_encodeR, f7Field_encodeR]; rfl)

theorem sltu (rd rs1 rs2 : RegIdx) : Statement (.sltu rd rs1 rs2) :=
  (classify_op (opField_encodeR ..)).trans (by rw [f3Field_encodeR, f7Field_encodeR]; rfl)

theorem xor (rd rs1 rs2 : RegIdx) : Statement (.xor rd rs1 rs2) :=
  (classify_op (opField_encodeR ..)).trans (by rw [f3Field_encodeR, f7Field_encodeR]; rfl)

theorem srl (rd rs1 rs2 : RegIdx) : Statement (.srl rd rs1 rs2) :=
  (classify_op (opField_encodeR ..)).trans (by rw [f3Field_encodeR, f7Field_encodeR]; rfl)

theorem sra (rd rs1 rs2 : RegIdx) : Statement (.sra rd rs1 rs2) :=
  (classify_op (opField_encodeR ..)).trans (by rw [f3Field_encodeR, f7Field_encodeR]; rfl)

theorem or (rd rs1 rs2 : RegIdx) : Statement (.or rd rs1 rs2) :=
  (classify_op (opField_encodeR ..)).trans (by rw [f3Field_encodeR, f7Field_encodeR]; rfl)

theorem and (rd rs1 rs2 : RegIdx) : Statement (.and rd rs1 rs2) :=
  (classify_op (opField_encodeR ..)).trans (by rw [f3Field_encodeR, f7Field_encodeR]; rfl)

theorem mul (rd rs1 rs2 : RegIdx) : Statement (.mul rd rs1 rs2) :=
  (classify_op (opField_encodeR ..)).trans (by rw [f3Field_encodeR, f7Field_encodeR]; rfl)

theorem mulh (rd rs1 rs2 : RegIdx) : Statement (.mulh rd rs1 rs2) :=
  (classify_op (opField_encodeR ..)).trans (by rw [f3Field_encodeR, f7Field_encodeR]; rfl)

theorem mulhsu (rd rs1 rs2 : RegIdx) : Statement (.mulhsu rd rs1 rs2) :=
  (classify_op (opField_encodeR ..)).trans (by rw [f3Field_encodeR, f7Field_encodeR]; rfl)

theorem mulhu (rd rs1 rs2 : RegIdx) : Statement (.mulhu rd rs1 rs2) :=
  (classify_op (opField_encodeR ..)).trans (by rw [f3Field_encodeR, f7Field_encodeR]; rfl)

theorem div (rd rs1 rs2 : RegIdx) : Statement (.div rd rs1 rs2) :=
  (classify_op (opField_encodeR ..)).trans (by rw [f3Field_encodeR, f7Field_encodeR]; rfl)

theorem divu (rd rs1 rs2 : RegIdx) : Statement (.divu rd rs1 rs2) :=
  (classify_op (opField_encodeR ..)).trans (by rw [f3Field_encodeR, f7Field_encodeR]; rfl)

theorem rem (rd rs1 rs2 : RegIdx) : Statement (.rem rd rs1 rs2) :=
  (classify_op (opField_encodeR ..)).trans (by rw [f3Field_encodeR, f7Field_encodeR]; rfl)

theorem remu (rd rs1 rs2 : RegIdx) : Statement (.remu rd rs1 rs2) :=
  (classify_op (opField_encodeR ..)).trans (by rw [f3Field_encodeR, f7Field_encodeR]; rfl)

theorem fence (pred succ : BitVec 4) : Statement (.fence pred succ) :=
  classify_fence (fmField_encodeFence ..) (lo20Field_encodeFence ..)

theorem fencei : Statement .fencei :=
  (by decide : classify 0x0000100F#32 = .fencei)

theorem ecall : Statement .ecall :=
  (by decide : classify 0x00000073#32 = .ecall)

theorem ebreak : Statement .ebreak :=
  (by decide : classify 0x00100073#32 = .ebreak)

theorem csrrw (rd : RegIdx) (csr : BitVec 12) (rs1 : RegIdx) : Statement (.csrrw rd csr rs1) :=
  (classify_system (opField_encodeCsr ..) (by rw [f3Field_encodeCsr]; decide)).trans (by rw [f3Field_encodeCsr]; rfl)

theorem csrrs (rd : RegIdx) (csr : BitVec 12) (rs1 : RegIdx) : Statement (.csrrs rd csr rs1) :=
  (classify_system (opField_encodeCsr ..) (by rw [f3Field_encodeCsr]; decide)).trans (by rw [f3Field_encodeCsr]; rfl)

theorem csrrc (rd : RegIdx) (csr : BitVec 12) (rs1 : RegIdx) : Statement (.csrrc rd csr rs1) :=
  (classify_system (opField_encodeCsr ..) (by rw [f3Field_encodeCsr]; decide)).trans (by rw [f3Field_encodeCsr]; rfl)

theorem csrrwi (rd : RegIdx) (csr : BitVec 12) (zimm : BitVec 5) : Statement (.csrrwi rd csr zimm) :=
  (classify_system (opField_encodeCsr ..) (by rw [f3Field_encodeCsr]; decide)).trans (by rw [f3Field_encodeCsr]; rfl)

theorem csrrsi (rd : RegIdx) (csr : BitVec 12) (zimm : BitVec 5) : Statement (.csrrsi rd csr zimm) :=
  (classify_system (opField_encodeCsr ..) (by rw [f3Field_encodeCsr]; decide)).trans (by rw [f3Field_encodeCsr]; rfl)

theorem csrrci (rd : RegIdx) (csr : BitVec 12) (zimm : BitVec 5) : Statement (.csrrci rd csr zimm) :=
  (classify_system (opField_encodeCsr ..) (by rw [f3Field_encodeCsr]; decide)).trans (by rw [f3Field_encodeCsr]; rfl)

theorem unknown : Statement .unknown :=
  (by decide : classify 0x00000000#32 = .unknown)

end Sys2Proof.Laws.EncodeClassified
end

