-- ==== Sys2Proof/Laws/Render.lean ====
section
/-! SUPPORT. The pieces of a line: no register name and no number is empty, so only the two operand-less records have
an empty operand string, and the tail of a line has one of three shapes. -/

namespace Sys2Proof.Machine

theorem regName_ne_nil (i : RegIdx) : regName i ≠ [] := by
  revert i
  decide

theorem decimalNat_ne_nil (n : Nat) : decimalNat n ≠ [] := by
  rw [decimalNat, Ne, List.map_eq_nil_iff]
  exact Nat.toDigits_ne_nil

theorem decimal_ne_nil (v : Int) : decimal v ≠ [] := by
  unfold decimal
  split
  · exact List.append_ne_nil_of_right_ne_nil _ (decimalNat_ne_nil _)
  · exact decimalNat_ne_nil _

/-- Every record with operands has an operand string. -/
theorem operandString_ne_nil (br : Bool) {ops : Operands} (hn : ops ≠ .none) (hu : ops ≠ .unknown) :
    operandString br ops ≠ [] := by
  cases ops with
  | none => exact absurd rfl hn
  | unknown => exact absurd rfl hu
  | i rd rs1 imm => cases br <;> simp [operandString, regName_ne_nil]
  | fence pred succ => simp [operandString, decimalNat_ne_nil]
  | r | s | b | u | j | shift | csr | csri => simp [operandString, regName_ne_nil]

/-- The tail of a line with operands (R344). -/
theorem lineTail_operands {k : Kind} {ops : Operands} (hk : k ≠ .unknown) (hn : ops ≠ .none) (hu : ops ≠ .unknown) :
    lineTail k ops =
      ascii "\t\t" ++ mnemonic k ++ ascii "\t" ++ operandString (bracket k) ops ++ ascii "\n" := by
  have h := operandString_ne_nil (bracket k) hn hu
  cases k with
  | unknown => exact absurd rfl hk
  | _ => simp only [lineTail, if_neg h, List.append_assoc]

end Sys2Proof.Machine
end

