-- ==== Sys2Proof/Tests/Slice0.lean ====
section
/-! SUPPORT. Tests: the checks of WellFormed refuse, words written field by field from the spec's formats decode to
what they stand for, one step on the spec's own example of each instruction, and for every obligation with hypotheses
a witness that meets them. Expected values come from the rules and vectors cited. -/

namespace Sys2Proof.Tests

open Sys2Proof.Machine

/-! ## WellFormed (R65, R67): an odd branch or jump offset is no instruction -/

theorem test_wf_jal_odd : ¬WellFormed (.jal 1 0x000001) := by decide
theorem test_wf_beq_odd : ¬WellFormed (.beq 10 11 0x0009) := by decide
theorem test_wf_bne_odd : ¬WellFormed (.bne 10 11 0x0001) := by decide
theorem test_wf_blt_odd : ¬WellFormed (.blt 10 11 0x1001) := by decide
theorem test_wf_bge_odd : ¬WellFormed (.bge 10 11 0x0801) := by decide
theorem test_wf_bltu_odd : ¬WellFormed (.bltu 10 11 0x1FFF) := by decide
theorem test_wf_bgeu_odd : ¬WellFormed (.bgeu 10 11 0x0003) := by decide
theorem test_wf_even : WellFormed (.jal 31 0x1FFFFE) ∧ WellFormed (.beq 31 31 0x1FFE) ∧
    WellFormed (.bgeu 0 0 0x0002) := by decide

/-! ## Decoding: fields written out by the formats of R62 to R71, opcodes and functs by R90 to R98 -/

/-- R66. -/
theorem test_decode_upper_immediate :
    decodeWord (0b10000000000000000001#20 ++ 0b01010#5 ++ 0b0110111#7) = .lui 10 0x80001 ∧
    decodeWord (0b10000000000000000001#20 ++ 0b01010#5 ++ 0b0010111#7) = .auipc 10 0x80001 := by decide

/-- R63, R67. -/
theorem test_decode_jumps :
    decodeWord (0b1#1 ++ 0b0000000001#10 ++ 0b0#1 ++ 0b00000010#8 ++ 0b01010#5 ++ 0b1101111#7) = .jal 10 0x102002 ∧
    decodeWord (0b100000000001#12 ++ 0b01011#5 ++ 0b000#3 ++ 0b01010#5 ++ 0b1100111#7) =
      .jalr 10 11 0x801 := by decide

/-- R65. -/
theorem test_decode_branches :
    decodeWord (0b1#1 ++ 0b000010#6 ++ 0b01100#5 ++ 0b01011#5 ++ 0b000#3 ++ 0b0001#4 ++ 0b0#1 ++ 0b1100011#7) =
      .beq 11 12 0x1042 ∧
    decodeWord (0b1#1 ++ 0b000010#6 ++ 0b01100#5 ++ 0b01011#5 ++ 0b001#3 ++ 0b0001#4 ++ 0b0#1 ++ 0b1100011#7) =
      .bne 11 12 0x1042 ∧
    decodeWord (0b1#1 ++ 0b000010#6 ++ 0b01100#5 ++ 0b01011#5 ++ 0b100#3 ++ 0b0001#4 ++ 0b0#1 ++ 0b1100011#7) =
      .blt 11 12 0x1042 ∧
    decodeWord (0b1#1 ++ 0b000010#6 ++ 0b01100#5 ++ 0b01011#5 ++ 0b101#3 ++ 0b0001#4 ++ 0b0#1 ++ 0b1100011#7) =
      .bge 11 12 0x1042 ∧
    decodeWord (0b1#1 ++ 0b000010#6 ++ 0b01100#5 ++ 0b01011#5 ++ 0b110#3 ++ 0b0001#4 ++ 0b0#1 ++ 0b1100011#7) =
      .bltu 11 12 0x1042 ∧
    decodeWord (0b1#1 ++ 0b000010#6 ++ 0b01100#5 ++ 0b01011#5 ++ 0b111#3 ++ 0b0001#4 ++ 0b0#1 ++ 0b1100011#7) =
      .bgeu 11 12 0x1042 := by decide

/-- R63. -/
theorem test_decode_loads :
    decodeWord (0b100000000001#12 ++ 0b01011#5 ++ 0b000#3 ++ 0b01010#5 ++ 0b0000011#7) = .lb 10 11 0x801 ∧
    decodeWord (0b100000000001#12 ++ 0b01011#5 ++ 0b001#3 ++ 0b01010#5 ++ 0b0000011#7) = .lh 10 11 0x801 ∧
    decodeWord (0b100000000001#12 ++ 0b01011#5 ++ 0b010#3 ++ 0b01010#5 ++ 0b0000011#7) = .lw 10 11 0x801 ∧
    decodeWord (0b100000000001#12 ++ 0b01011#5 ++ 0b100#3 ++ 0b01010#5 ++ 0b0000011#7) = .lbu 10 11 0x801 ∧
    decodeWord (0b100000000001#12 ++ 0b01011#5 ++ 0b101#3 ++ 0b01010#5 ++ 0b0000011#7) =
      .lhu 10 11 0x801 := by decide

/-- R64. -/
theorem test_decode_stores :
    decodeWord (0b1000000#7 ++ 0b01100#5 ++ 0b01011#5 ++ 0b000#3 ++ 0b00001#5 ++ 0b0100011#7) = .sb 11 12 0x801 ∧
    decodeWord (0b1000000#7 ++ 0b01100#5 ++ 0b01011#5 ++ 0b001#3 ++ 0b00001#5 ++ 0b0100011#7) = .sh 11 12 0x801 ∧
    decodeWord (0b1000000#7 ++ 0b01100#5 ++ 0b01011#5 ++ 0b010#3 ++ 0b00001#5 ++ 0b0100011#7) =
      .sw 11 12 0x801 := by decide

/-- R63. -/
theorem test_decode_alu_immediate :
    decodeWord (0b100000000001#12 ++ 0b01011#5 ++ 0b000#3 ++ 0b01010#5 ++ 0b0010011#7) = .addi 10 11 0x801 ∧
    decodeWord (0b100000000001#12 ++ 0b01011#5 ++ 0b010#3 ++ 0b01010#5 ++ 0b0010011#7) = .slti 10 11 0x801 ∧
    decodeWord (0b100000000001#12 ++ 0b01011#5 ++ 0b011#3 ++ 0b01010#5 ++ 0b0010011#7) = .sltiu 10 11 0x801 ∧
    decodeWord (0b100000000001#12 ++ 0b01011#5 ++ 0b100#3 ++ 0b01010#5 ++ 0b0010011#7) = .xori 10 11 0x801 ∧
    decodeWord (0b100000000001#12 ++ 0b01011#5 ++ 0b110#3 ++ 0b01010#5 ++ 0b0010011#7) = .ori 10 11 0x801 ∧
    decodeWord (0b100000000001#12 ++ 0b01011#5 ++ 0b111#3 ++ 0b01010#5 ++ 0b0010011#7) =
      .andi 10 11 0x801 := by decide

/-- R68. -/
theorem test_decode_shifts :
    decodeWord (0b0000000#7 ++ 0b10011#5 ++ 0b01011#5 ++ 0b001#3 ++ 0b01010#5 ++ 0b0010011#7) = .slli 10 11 19 ∧
    decodeWord (0b0000000#7 ++ 0b10011#5 ++ 0b01011#5 ++ 0b101#3 ++ 0b01010#5 ++ 0b0010011#7) = .srli 10 11 19 ∧
    decodeWord (0b0100000#7 ++ 0b10011#5 ++ 0b01011#5 ++ 0b101#3 ++ 0b01010#5 ++ 0b0010011#7) =
      .srai 10 11 19 := by decide

/-- R62. -/
theorem test_decode_register_register :
    decodeWord (0b0000000#7 ++ 0b01100#5 ++ 0b01011#5 ++ 0b000#3 ++ 0b01010#5 ++ 0b0110011#7) = .add 10 11 12 ∧
    decodeWord (0b0100000#7 ++ 0b01100#5 ++ 0b01011#5 ++ 0b000#3 ++ 0b01010#5 ++ 0b0110011#7) = .sub 10 11 12 ∧
    decodeWord (0b0000000#7 ++ 0b01100#5 ++ 0b01011#5 ++ 0b001#3 ++ 0b01010#5 ++ 0b0110011#7) = .sll 10 11 12 ∧
    decodeWord (0b0000000#7 ++ 0b01100#5 ++ 0b01011#5 ++ 0b010#3 ++ 0b01010#5 ++ 0b0110011#7) = .slt 10 11 12 ∧
    decodeWord (0b0000000#7 ++ 0b01100#5 ++ 0b01011#5 ++ 0b011#3 ++ 0b01010#5 ++ 0b0110011#7) = .sltu 10 11 12 ∧
    decodeWord (0b0000000#7 ++ 0b01100#5 ++ 0b01011#5 ++ 0b100#3 ++ 0b01010#5 ++ 0b0110011#7) = .xor 10 11 12 ∧
    decodeWord (0b0000000#7 ++ 0b01100#5 ++ 0b01011#5 ++ 0b101#3 ++ 0b01010#5 ++ 0b0110011#7) = .srl 10 11 12 ∧
    decodeWord (0b0100000#7 ++ 0b01100#5 ++ 0b01011#5 ++ 0b101#3 ++ 0b01010#5 ++ 0b0110011#7) = .sra 10 11 12 ∧
    decodeWord (0b0000000#7 ++ 0b01100#5 ++ 0b01011#5 ++ 0b110#3 ++ 0b01010#5 ++ 0b0110011#7) = .or 10 11 12 ∧
    decodeWord (0b0000000#7 ++ 0b01100#5 ++ 0b01011#5 ++ 0b111#3 ++ 0b01010#5 ++ 0b0110011#7) =
      .and 10 11 12 := by decide

/-- R62. -/
theorem test_decode_multiply_divide :
    decodeWord (0b0000001#7 ++ 0b01100#5 ++ 0b01011#5 ++ 0b000#3 ++ 0b01010#5 ++ 0b0110011#7) = .mul 10 11 12 ∧
    decodeWord (0b0000001#7 ++ 0b01100#5 ++ 0b01011#5 ++ 0b001#3 ++ 0b01010#5 ++ 0b0110011#7) = .mulh 10 11 12 ∧
    decodeWord (0b0000001#7 ++ 0b01100#5 ++ 0b01011#5 ++ 0b010#3 ++ 0b01010#5 ++ 0b0110011#7) = .mulhsu 10 11 12 ∧
    decodeWord (0b0000001#7 ++ 0b01100#5 ++ 0b01011#5 ++ 0b011#3 ++ 0b01010#5 ++ 0b0110011#7) = .mulhu 10 11 12 ∧
    decodeWord (0b0000001#7 ++ 0b01100#5 ++ 0b01011#5 ++ 0b100#3 ++ 0b01010#5 ++ 0b0110011#7) = .div 10 11 12 ∧
    decodeWord (0b0000001#7 ++ 0b01100#5 ++ 0b01011#5 ++ 0b101#3 ++ 0b01010#5 ++ 0b0110011#7) = .divu 10 11 12 ∧
    decodeWord (0b0000001#7 ++ 0b01100#5 ++ 0b01011#5 ++ 0b110#3 ++ 0b01010#5 ++ 0b0110011#7) = .rem 10 11 12 ∧
    decodeWord (0b0000001#7 ++ 0b01100#5 ++ 0b01011#5 ++ 0b111#3 ++ 0b01010#5 ++ 0b0110011#7) =
      .remu 10 11 12 := by decide

/-- R69, R90. -/
theorem test_decode_fences :
    decodeWord (0b0000#4 ++ 0b1001#4 ++ 0b0110#4 ++ 0b00000000000000001111#20) = .fence 9 6 ∧
    decodeWord (0b00000000000000000001000000001111#32) = .fencei := by decide

/-- R90. -/
theorem test_decode_system :
    decodeWord (0b00000000000000000000000001110011#32) = .ecall ∧
    decodeWord (0b00000000000100000000000001110011#32) = .ebreak := by decide

/-- R70. -/
theorem test_decode_csr :
    decodeWord (0b100000000001#12 ++ 0b01011#5 ++ 0b001#3 ++ 0b01010#5 ++ 0b1110011#7) = .csrrw 10 0x801 11 ∧
    decodeWord (0b100000000001#12 ++ 0b01011#5 ++ 0b010#3 ++ 0b01010#5 ++ 0b1110011#7) = .csrrs 10 0x801 11 ∧
    decodeWord (0b100000000001#12 ++ 0b01011#5 ++ 0b011#3 ++ 0b01010#5 ++ 0b1110011#7) =
      .csrrc 10 0x801 11 := by decide

/-- R71. -/
theorem test_decode_csr_immediate :
    decodeWord (0b100000000001#12 ++ 0b01011#5 ++ 0b101#3 ++ 0b01010#5 ++ 0b1110011#7) = .csrrwi 10 0x801 11 ∧
    decodeWord (0b100000000001#12 ++ 0b01011#5 ++ 0b110#3 ++ 0b01010#5 ++ 0b1110011#7) = .csrrsi 10 0x801 11 ∧
    decodeWord (0b100000000001#12 ++ 0b01011#5 ++ 0b111#3 ++ 0b01010#5 ++ 0b1110011#7) =
      .csrrci 10 0x801 11 := by decide

/-- R93 to R99, R120, R278: words no row matches. -/
theorem test_decode_unknown :
    decodeWord (0b0000000#7 ++ 0b01100#5 ++ 0b01011#5 ++ 0b010#3 ++ 0b01010#5 ++ 0b1100011#7) = .unknown ∧
    decodeWord (0b0100000#7 ++ 0b01100#5 ++ 0b01011#5 ++ 0b001#3 ++ 0b01010#5 ++ 0b0110011#7) = .unknown ∧
    decodeWord (0b1000#4 ++ 0b0011#4 ++ 0b0011#4 ++ 0x0000F#20) = .unknown ∧
    decodeWord (0b000000000000#12 ++ 0b01011#5 ++ 0b000#3 ++ 0b01010#5 ++ 0b0010000#7) = .unknown ∧
    decodeWord 0x30200073#32 = .unknown := by decide

/-- R92: JALR whatever its funct3. -/
theorem test_decode_jalr_funct3 : decodeWord 0x00009067#32 = .jalr 0 1 0 := by decide

/-- R42, R60: the first byte is the lowest; three bytes are no word. -/
theorem test_decode_bytes :
    decodeBytes [0x93, 0x00, 0x00, 0x00, 0xAA] = .ok (.addi 1 0 0, [0xAA]) ∧
    decodeBytes [0x93, 0x00, 0x00] = .error (.truncated 3) := by decide

theorem test_decode_table_word :
    decodeTableWord 32 0x00C58533 = some (.add 10 11 12) ∧ decodeTableWord 40 0x00C58533 = none := by decide

/-! ## One step: the example of each family rule, the line at index 0 and base 0 -/

/-- The ports and the sink after one step from reset on a given word. -/
def ran (m : ImmMode) (w : Nat) : Option (Outputs × List Text) :=
  match step ((State.reset.inMode m).withFetchWord 32 w) with
  | .next t => some (t.out, t.sink)
  | .fault _ => none
  | .refused _ => none

/-- R150. -/
theorem test_step_lui : ran .compat 0x12345537 =
    some ({ kind_o := 1, fmt_o := 5, rd_o := 10, imm_o := 837 },
      [ascii "00000000: \t\tlui\ta0, 837\n"]) := by decide

/-- R151. -/
theorem test_step_auipc : ran .compat 0x00800097 =
    some ({ kind_o := 2, fmt_o := 5, rd_o := 1, imm_o := -2048 },
      [ascii "00000000: \t\tauipc\tra, -2048\n"]) := by decide

/-- R160. -/
theorem test_step_jal : ran .compat 0x010000EF =
    some ({ kind_o := 3, fmt_o := 6, rd_o := 1, imm_o := 16 }, [ascii "00000000: \t\tjal\tra, 16\n"]) := by decide

/-- R161. -/
theorem test_step_jalr : ran .compat 0x00008067 =
    some ({ kind_o := 4, fmt_o := 2, rd_o := 0, rs1_o := 1, imm_o := 0 },
      [ascii "00000000: \t\tjalr\tzero, ra, 0\n"]) := by decide

/-- R162. -/
theorem test_step_beq : ran .compat 0x00B50463 =
    some ({ kind_o := 5, fmt_o := 4, rs1_o := 10, rs2_o := 11, imm_o := 8 },
      [ascii "00000000: \t\tbeq\ta0, a1, 8\n"]) := by decide

/-- R163. -/
theorem test_step_bne : ran .compat 0xFE051CE3 =
    some ({ kind_o := 6, fmt_o := 4, rs1_o := 10, rs2_o := 0, imm_o := -8 },
      [ascii "00000000: \t\tbne\ta0, zero, -8\n"]) := by decide

/-- R164. -/
theorem test_step_blt : ran .compat 0x00B540E3 =
    some ({ kind_o := 7, fmt_o := 4, rs1_o := 10, rs2_o := 11, imm_o := -2048 },
      [ascii "00000000: \t\tblt\ta0, a1, -2048\n"]) := by decide

/-- R165. -/
theorem test_step_bge : ran .compat 0x80B55063 =
    some ({ kind_o := 8, fmt_o := 4, rs1_o := 10, rs2_o := 11, imm_o := 0 },
      [ascii "00000000: \t\tbge\ta0, a1, 0\n"]) := by decide

/-- R166. -/
theorem test_step_bltu : ran .compat 0x0662E263 =
    some ({ kind_o := 9, fmt_o := 4, rs1_o := 5, rs2_o := 6, imm_o := 100 },
      [ascii "00000000: \t\tbltu\tt0, t1, 100\n"]) := by decide

/-- R167. -/
theorem test_step_bgeu : ran .compat 0xFE62FFE3 =
    some ({ kind_o := 10, fmt_o := 4, rs1_o := 5, rs2_o := 6, imm_o := -2 },
      [ascii "00000000: \t\tbgeu\tt0, t1, -2\n"]) := by decide

/-- R180. -/
theorem test_step_lb : ran .compat 0xFFC10503 =
    some ({ kind_o := 11, fmt_o := 2, rd_o := 10, rs1_o := 2, imm_o := -4 },
      [ascii "00000000: \t\tlb\ta0, -4(sp)\n"]) := by decide

/-- R181. -/
theorem test_step_lh : ran .compat 0x00211503 =
    some ({ kind_o := 12, fmt_o := 2, rd_o := 10, rs1_o := 2, imm_o := 2 },
      [ascii "00000000: \t\tlh\ta0, 2(sp)\n"]) := by decide

/-- R182. -/
theorem test_step_lw : ran .compat 0x00012503 =
    some ({ kind_o := 13, fmt_o := 2, rd_o := 10, rs1_o := 2, imm_o := 0 },
      [ascii "00000000: \t\tlw\ta0, 0(sp)\n"]) := by decide

/-- R183. -/
theorem test_step_lbu : ran .compat 0x7FF5C503 =
    some ({ kind_o := 14, fmt_o := 2, rd_o := 10, rs1_o := 11, imm_o := 2047 },
      [ascii "00000000: \t\tlbu\ta0, 2047(a1)\n"]) := by decide

/-- R184. -/
theorem test_step_lhu : ran .compat 0x8005D503 =
    some ({ kind_o := 15, fmt_o := 2, rd_o := 10, rs1_o := 11, imm_o := -2048 },
      [ascii "00000000: \t\tlhu\ta0, -2048(a1)\n"]) := by decide

/-- R186. -/
theorem test_step_sb : ran .compat 0xFEA10FA3 =
    some ({ kind_o := 16, fmt_o := 3, rs1_o := 2, rs2_o := 10, imm_o := -1 },
      [ascii "00000000: \t\tsb\ta0, -1(sp)\n"]) := by decide

/-- R187. -/
theorem test_step_sh : ran .compat 0x00A11323 =
    some ({ kind_o := 17, fmt_o := 3, rs1_o := 2, rs2_o := 10, imm_o := 6 },
      [ascii "00000000: \t\tsh\ta0, 6(sp)\n"]) := by decide

/-- R188. -/
theorem test_step_sw : ran .compat 0x00112623 =
    some ({ kind_o := 18, fmt_o := 3, rs1_o := 2, rs2_o := 1, imm_o := 12 },
      [ascii "00000000: \t\tsw\tra, 12(sp)\n"]) := by decide

/-- R200. -/
theorem test_step_addi : ran .compat 0x00000093 =
    some ({ kind_o := 19, fmt_o := 2, rd_o := 1, rs1_o := 0, imm_o := 0 },
      [ascii "00000000: \t\taddi\tra, zero, 0\n"]) := by decide

/-- R201. -/
theorem test_step_slti : ran .compat 0xFFB5A513 =
    some ({ kind_o := 20, fmt_o := 2, rd_o := 10, rs1_o := 11, imm_o := -5 },
      [ascii "00000000: \t\tslti\ta0, a1, -5\n"]) := by decide

/-- R202. -/
theorem test_step_sltiu : ran .compat 0xFFF5B513 =
    some ({ kind_o := 21, fmt_o := 2, rd_o := 10, rs1_o := 11, imm_o := 4095 },
      [ascii "00000000: \t\tsltiu\ta0, a1, 4095\n"]) := by decide

/-- R203. -/
theorem test_step_xori : ran .compat 0x5555C513 =
    some ({ kind_o := 22, fmt_o := 2, rd_o := 10, rs1_o := 11, imm_o := 1365 },
      [ascii "00000000: \t\txori\ta0, a1, 1365\n"]) := by decide

/-- R204. -/
theorem test_step_ori : ran .compat 0x0F05E513 =
    some ({ kind_o := 23, fmt_o := 2, rd_o := 10, rs1_o := 11, imm_o := 240 },
      [ascii "00000000: \t\tori\ta0, a1, 240\n"]) := by decide

/-- R205. -/
theorem test_step_andi : ran .compat 0x0FF5F513 =
    some ({ kind_o := 24, fmt_o := 2, rd_o := 10, rs1_o := 11, imm_o := 255 },
      [ascii "00000000: \t\tandi\ta0, a1, 255\n"]) := by decide

/-- R206. -/
theorem test_step_slli : ran .compat 0x01F59513 =
    some ({ kind_o := 25, fmt_o := 7, rd_o := 10, rs1_o := 11, shamt_o := 31 },
      [ascii "00000000: \t\tslli\ta0, a1, 31\n"]) := by decide

/-- R207. -/
theorem test_step_srli : ran .compat 0x0015D513 =
    some ({ kind_o := 26, fmt_o := 7, rd_o := 10, rs1_o := 11, shamt_o := 1 },
      [ascii "00000000: \t\tsrli\ta0, a1, 1\n"]) := by decide

/-- R208. -/
theorem test_step_srai : ran .compat 0x41F5D513 =
    some ({ kind_o := 27, fmt_o := 7, rd_o := 10, rs1_o := 11, shamt_o := 31 },
      [ascii "00000000: \t\tsrai\ta0, a1, 31\n"]) := by decide

/-- R220. -/
theorem test_step_add : ran .compat 0x00C58533 =
    some ({ kind_o := 28, fmt_o := 1, rd_o := 10, rs1_o := 11, rs2_o := 12 },
      [ascii "00000000: \t\tadd\ta0, a1, a2\n"]) := by decide

/-- R221. -/
theorem test_step_sub : ran .compat 0x40C58533 =
    some ({ kind_o := 29, fmt_o := 1, rd_o := 10, rs1_o := 11, rs2_o := 12 },
      [ascii "00000000: \t\tsub\ta0, a1, a2\n"]) := by decide

/-- R222. -/
theorem test_step_sll : ran .compat 0x00C59533 =
    some ({ kind_o := 30, fmt_o := 1, rd_o := 10, rs1_o := 11, rs2_o := 12 },
      [ascii "00000000: \t\tsll\ta0, a1, a2\n"]) := by decide

/-- R223. -/
theorem test_step_slt : ran .compat 0x00C5A533 =
    some ({ kind_o := 31, fmt_o := 1, rd_o := 10, rs1_o := 11, rs2_o := 12 },
      [ascii "00000000: \t\tslt\ta0, a1, a2\n"]) := by decide

/-- R224. -/
theorem test_step_sltu : ran .compat 0x00C5B533 =
    some ({ kind_o := 32, fmt_o := 1, rd_o := 10, rs1_o := 11, rs2_o := 12 },
      [ascii "00000000: \t\tsltu\ta0, a1, a2\n"]) := by decide

/-- R225. -/
theorem test_step_xor : ran .compat 0x00C5C533 =
    some ({ kind_o := 33, fmt_o := 1, rd_o := 10, rs1_o := 11, rs2_o := 12 },
      [ascii "00000000: \t\txor\ta0, a1, a2\n"]) := by decide

/-- R226. -/
theorem test_step_srl : ran .compat 0x00C5D533 =
    some ({ kind_o := 34, fmt_o := 1, rd_o := 10, rs1_o := 11, rs2_o := 12 },
      [ascii "00000000: \t\tsrl\ta0, a1, a2\n"]) := by decide

/-- R227. -/
theorem test_step_sra : ran .compat 0x40C5D533 =
    some ({ kind_o := 35, fmt_o := 1, rd_o := 10, rs1_o := 11, rs2_o := 12 },
      [ascii "00000000: \t\tsra\ta0, a1, a2\n"]) := by decide

/-- R228. -/
theorem test_step_or : ran .compat 0x00C5E533 =
    some ({ kind_o := 36, fmt_o := 1, rd_o := 10, rs1_o := 11, rs2_o := 12 },
      [ascii "00000000: \t\tor\ta0, a1, a2\n"]) := by decide

/-- R229. -/
theorem test_step_and : ran .compat 0x00C5F533 =
    some ({ kind_o := 37, fmt_o := 1, rd_o := 10, rs1_o := 11, rs2_o := 12 },
      [ascii "00000000: \t\tand\ta0, a1, a2\n"]) := by decide

/-- R240. -/
theorem test_step_mul : ran .compat 0x02C58533 =
    some ({ kind_o := 38, fmt_o := 1, rd_o := 10, rs1_o := 11, rs2_o := 12 },
      [ascii "00000000: \t\tmul\ta0, a1, a2\n"]) := by decide

/-- R241. -/
theorem test_step_mulh : ran .compat 0x02C59533 =
    some ({ kind_o := 39, fmt_o := 1, rd_o := 10, rs1_o := 11, rs2_o := 12 },
      [ascii "00000000: \t\tmulh\ta0, a1, a2\n"]) := by decide

/-- R242. -/
theorem test_step_mulhsu : ran .compat 0x02C5A533 =
    some ({ kind_o := 40, fmt_o := 1, rd_o := 10, rs1_o := 11, rs2_o := 12 },
      [ascii "00000000: \t\tmulhsu\ta0, a1, a2\n"]) := by decide

/-- R243. -/
theorem test_step_mulhu : ran .compat 0x02C5B533 =
    some ({ kind_o := 41, fmt_o := 1, rd_o := 10, rs1_o := 11, rs2_o := 12 },
      [ascii "00000000: \t\tmulhu\ta0, a1, a2\n"]) := by decide

/-- R244. -/
theorem test_step_div : ran .compat 0x02C5C533 =
    some ({ kind_o := 42, fmt_o := 1, rd_o := 10, rs1_o := 11, rs2_o := 12 },
      [ascii "00000000: \t\tdiv\ta0, a1, a2\n"]) := by decide

/-- R245. -/
theorem test_step_divu : ran .compat 0x02C5D533 =
    some ({ kind_o := 43, fmt_o := 1, rd_o := 10, rs1_o := 11, rs2_o := 12 },
      [ascii "00000000: \t\tdivu\ta0, a1, a2\n"]) := by decide

/-- R246. -/
theorem test_step_rem : ran .compat 0x02C5E533 =
    some ({ kind_o := 44, fmt_o := 1, rd_o := 10, rs1_o := 11, rs2_o := 12 },
      [ascii "00000000: \t\trem\ta0, a1, a2\n"]) := by decide

/-- R247. -/
theorem test_step_remu : ran .compat 0x02C5F533 =
    some ({ kind_o := 45, fmt_o := 1, rd_o := 10, rs1_o := 11, rs2_o := 12 },
      [ascii "00000000: \t\tremu\ta0, a1, a2\n"]) := by decide

/-- R260. -/
theorem test_step_fence : ran .compat 0x0FF0000F =
    some ({ kind_o := 46, fmt_o := 8, pred_o := 15, succ_o := 15 },
      [ascii "00000000: \t\tfence\t15, 15\n"]) := by decide

/-- R261. -/
theorem test_step_fencei : ran .compat 0x0000100F =
    some ({ kind_o := 47, fmt_o := 11 }, [ascii "00000000: \t\tfence.i\n"]) := by decide

/-- R270. -/
theorem test_step_ecall : ran .compat 0x00000073 =
    some ({ kind_o := 48, fmt_o := 11 }, [ascii "00000000: \t\tecall\n"]) := by decide

/-- R271. -/
theorem test_step_ebreak : ran .compat 0x00100073 =
    some ({ kind_o := 49, fmt_o := 11 }, [ascii "00000000: \t\tebreak\n"]) := by decide

/-- R272. -/
theorem test_step_csrrw : ran .compat 0x30029073 =
    some ({ kind_o := 50, fmt_o := 9, rd_o := 0, csr_o := 768, rs1_o := 5 },
      [ascii "00000000: \t\tcsrrw\tzero, 768, t0\n"]) := by decide

/-- R273. -/
theorem test_step_csrrs : ran .compat 0xC0002573 =
    some ({ kind_o := 51, fmt_o := 9, rd_o := 10, csr_o := 3072, rs1_o := 0 },
      [ascii "00000000: \t\tcsrrs\ta0, 3072, zero\n"]) := by decide

/-- R274. -/
theorem test_step_csrrc : ran .compat 0x30033073 =
    some ({ kind_o := 52, fmt_o := 9, rd_o := 0, csr_o := 768, rs1_o := 6 },
      [ascii "00000000: \t\tcsrrc\tzero, 768, t1\n"]) := by decide

/-- R275. -/
theorem test_step_csrrwi : ran .compat 0x3402D573 =
    some ({ kind_o := 53, fmt_o := 10, rd_o := 10, csr_o := 832, zimm_o := 5 },
      [ascii "00000000: \t\tcsrrwi\ta0, 832, 5\n"]) := by decide

/-- R276. -/
theorem test_step_csrrsi : ran .compat 0x30046073 =
    some ({ kind_o := 54, fmt_o := 10, rd_o := 0, csr_o := 768, zimm_o := 8 },
      [ascii "00000000: \t\tcsrrsi\tzero, 768, 8\n"]) := by decide

/-- R277. -/
theorem test_step_csrrci : ran .compat 0x300FF073 =
    some ({ kind_o := 55, fmt_o := 10, rd_o := 0, csr_o := 768, zimm_o := 31 },
      [ascii "00000000: \t\tcsrrci\tzero, 768, 31\n"]) := by decide

/-- R301, R345. -/
theorem test_step_unknown : ran .compat 0x00000000 =
    some ({ kind_o := 0, fmt_o := 0 }, [ascii "00000000: \tUNKNOWN\n"]) := by decide

/-! The ARCH values of the same rules. -/

/-- R150. -/
theorem test_step_lui_arch : ran .arch 0x12345537 =
    some ({ kind_o := 1, fmt_o := 5, rd_o := 10, imm_o := 74565 }, [ascii "00000000: \t\tlui\ta0, 74565\n"]) := by
  decide
/-- R160. -/
theorem test_step_jal_arch : ran .arch 0x8000006F =
    some ({ kind_o := 3, fmt_o := 6, imm_o := -1048576 }, [ascii "00000000: \t\tjal\tzero, -1048576\n"]) := by
  decide
/-- R164. -/
theorem test_step_blt_arch : ran .arch 0x00B540E3 =
    some ({ kind_o := 7, fmt_o := 4, rs1_o := 10, rs2_o := 11, imm_o := 2048 },
      [ascii "00000000: \t\tblt\ta0, a1, 2048\n"]) := by decide
/-- R202. -/
theorem test_step_sltiu_arch : ran .arch 0xFFF5B513 =
    some ({ kind_o := 21, fmt_o := 2, rd_o := 10, rs1_o := 11, imm_o := -1 },
      [ascii "00000000: \t\tsltiu\ta0, a1, -1\n"]) := by decide

/-! ## Lines with labels and host parameters (the listings of L1.5 and L2.15) -/

/-- A symbol whose name is followed by its terminator and by the next name of the string table. -/
def named (name : String) (value : Word) (info : Byte) : ObjectSymbol :=
  { stringBytes := ascii name ++ [0, 0x78], value := value, size := 8, info := info }

def object215 : ObjectFile where
  defect := none
  codeWords := [0x00000013, 0x00000000, 0x00008067]
  base := 0x00010074
  symbols := [named "f" 0x10074 0x12, named "obj" 0x10078 0x11, named "g" 0x1007C 0x22]

def at215 (c : HexCase) (l : LineAddr) (index : Nat) : State :=
  { State.reset.handOver object215 { immMode := .compat, hexCase := c, lineAddr := l } with index := index }

/-- The lines of a step. -/
def linesAfter (s : State) : Option (List Text) :=
  match step s with
  | .next t => some t.sink
  | .fault _ => none
  | .refused _ => none

theorem test_line_function_label : linesAfter (at215 .lower .absolute 0) =
    some [ascii "00010074: <f>\t\taddi\tzero, zero, 0\n"] := by decide
theorem test_line_object_is_no_label : linesAfter (at215 .lower .absolute 1) =
    some [ascii "00010078: \tUNKNOWN\n"] := by decide
theorem test_line_lower : linesAfter (at215 .lower .absolute 2) =
    some [ascii "0001007c: <g>\t\tjalr\tzero, ra, 0\n"] := by decide
theorem test_line_upper : linesAfter (at215 .upper .absolute 2) =
    some [ascii "0001007C: <g>\t\tjalr\tzero, ra, 0\n"] := by decide
theorem test_line_offset : linesAfter (at215 .upper .sectionOffset 2) =
    some [ascii "00000008: <g>\t\tjalr\tzero, ra, 0\n"] := by decide

def object15 : ObjectFile where
  defect := none
  codeWords := [0x00000013, 0x00008067]
  base := 0
  symbols := [named "first" 0 0x12, named "second" 0 0x12]

def params0 : Params := { immMode := .compat, hexCase := .lower, lineAddr := .absolute }

theorem test_line_last_label_wins : linesAfter (State.reset.handOver object15 params0) =
    some [ascii "00000000: <second>\t\taddi\tzero, zero, 0\n"] := by decide
theorem test_line_label_not_carried_over :
    linesAfter { State.reset.handOver object15 params0 with index := 1 } =
    some [ascii "00000004: \t\tjalr\tzero, ra, 0\n"] := by decide

/-- D17: the second address wraps. -/
theorem test_line_wraps :
    linesAfter { State.reset.handOver { object15 with base := 0xFFFFFFFC, symbols := [] } params0 with index := 1 } =
    some [ascii "00000000: \t\tjalr\tzero, ra, 0\n"] := by decide

/-! ## Primitives (L1.1, L1.2, L2.14) -/

theorem test_extract :
    extract 0x12345678#32 31 0 = 0x12345678#32 ∧ extract 0x80000000#32 31 31 = 1#1 ∧
    extract 0x00000093#32 7 7 = 1#1 := by decide

theorem test_sign_extend :
    signExtend 0x7FF 11 = 2047 ∧ signExtend 0xFFF 11 = -1 ∧ signExtend 0x1000 12 = -4096 ∧
    signExtend 0x100000 20 = -1048576 ∧ signExtend 0x1 0 = -1 ∧ signExtend 0x12345 11 = 837 := by decide

/-- L2.8 for the first word; R244's match, with rs2 = 0, for the second (log entry 21). -/
theorem test_zero_divisor_words :
    decodeWord 0x02058533#32 = .mul 10 11 0 ∧ decodeWord 0x0205C533#32 = .div 10 11 0 := by decide

/-- L2.14. -/
theorem test_register_name_port :
    regNamePort 0 = 0x6F72657A#32 ∧ regNamePort 1 = 0x00006172#32 ∧ regNamePort 8 = 0x00003073#32 ∧
    regNamePort 27 = 0x00313173#32 ∧ regNamePort 31 = 0x00003674#32 := by decide

/-! ## Witnesses: concrete states and operands that meet the hypotheses of each obligation, at the ends of each range.
A row's own value is its word with every operand field 0; with the complement of the mask it has every field all ones. -/

theorem witness_ExtractIsQuotientAndRemainder :
    ((31 ≤ 31 ∧ 31 ≤ 31) ∧ (extract 0x80000000#32 31 31).toNat = 1) ∧
    ((0 ≤ 31 ∧ 31 ≤ 31) ∧ (extract 0x80000000#32 31 0).toNat = 0x80000000) ∧
    ((0 ≤ 0 ∧ 0 ≤ 31) ∧ (extract 0x80000000#32 0 0).toNat = 0) := by decide

theorem witness_SignExtenderIdentity :
    (0x7FF < 2 ^ (11 + 1) ∧ Nat.testBit 0x7FF 11 = false ∧ signExtend 0x7FF 11 = 2047) ∧
    (0x800 < 2 ^ (11 + 1) ∧ Nat.testBit 0x800 11 = true ∧ signExtend 0x800 11 = -2048) ∧
    (1 < 2 ^ (0 + 1) ∧ Nat.testBit 1 0 = true ∧ signExtend 1 0 = -1) := by decide

theorem witness_IAndSImmediates_signed :
    [0x00000067#32].all fun row =>
      row &&& 0x0000007F#32 == row && (row ||| 0xFFFFFF80#32) &&& 0x0000007F#32 == row := by decide

theorem witness_IAndSImmediates_loads :
    [0x00000003#32, 0x00001003#32, 0x00002003#32, 0x00004003#32, 0x00005003#32].all fun row =>
      row &&& 0x0000707F#32 == row && (row ||| 0xFFFF8F80#32) &&& 0x0000707F#32 == row := by decide

theorem witness_IAndSImmediates_alu :
    [0x00000013#32, 0x00002013#32, 0x00004013#32, 0x00006013#32, 0x00007013#32].all fun row =>
      row &&& 0x0000707F#32 == row && (row ||| 0xFFFF8F80#32) &&& 0x0000707F#32 == row := by decide

theorem witness_IAndSImmediates_stores :
    [0x00000023#32, 0x00001023#32, 0x00002023#32].all fun row =>
      row &&& 0x0000707F#32 == row && (row ||| 0xFFFF8F80#32) &&& 0x0000707F#32 == row := by decide

/-- Bit 31 set and clear. -/
theorem witness_SltiuImmediateByMode :
    (0x8005B513#32 &&& 0x0000707F#32 = 0x00003013#32 ∧ bits 0x8005B513#32 31 31 = 1) ∧
    (0x7FF5B513#32 &&& 0x0000707F#32 = 0x00003013#32 ∧ bits 0x7FF5B513#32 31 31 = 0) := by decide

theorem witness_BranchImmediateByMode :
    [0x00000063#32, 0x00001063#32, 0x00004063#32, 0x00005063#32, 0x00006063#32, 0x00007063#32].all fun row =>
      row &&& 0x0000707F#32 == row && (row ||| 0xFFFF8F80#32) &&& 0x0000707F#32 == row := by decide

/-- The two sides of the comparison of the modes: equal at -2, different at -4096 and at 2048. -/
theorem witness_BranchImmediateByMode_sides :
    (0xFE62FFE3#32 &&& tableMask .bgeu = tableMatch .bgeu ∧ bits 0xFE62FFE3#32 31 31 = bits 0xFE62FFE3#32 7 7) ∧
    (0x80B50063#32 &&& tableMask .beq = tableMatch .beq ∧ bits 0x80B50063#32 31 31 ≠ bits 0x80B50063#32 7 7) ∧
    (0x00B540E3#32 &&& tableMask .blt = tableMatch .blt ∧ bits 0x00B540E3#32 31 31 ≠ bits 0x00B540E3#32 7 7) := by
  decide

theorem witness_UpperImmediateByMode :
    [0x00000037#32, 0x00000017#32].all fun row =>
      row &&& 0x0000007F#32 == row && (row ||| 0xFFFFFF80#32) &&& 0x0000007F#32 == row := by decide

theorem witness_UpperImmediateByMode_sides :
    (0xFFFFF297#32 &&& tableMask .auipc = tableMatch .auipc ∧ bits 0xFFFFF297#32 31 23 = 511) ∧
    (0x007FF537#32 &&& tableMask .lui = tableMatch .lui ∧ bits 0x007FF537#32 31 23 = 0) ∧
    (0x80000537#32 &&& tableMask .lui = tableMatch .lui ∧ bits 0x80000537#32 31 23 = 256) := by decide

theorem witness_JumpImmediateByMode :
    (0x7FE0006F#32 &&& 0x0000007F#32 = 0x0000006F#32 ∧ bits 0x7FE0006F#32 31 31 = 0 ∧ bits 0x7FE0006F#32 19 12 = 0 ∧
      bits 0x7FE0006F#32 20 20 = 0) ∧
    (0xFFDFF06F#32 &&& 0x0000007F#32 = 0x0000006F#32 ∧ bits 0xFFDFF06F#32 31 31 = 1 ∧
      bits 0xFFDFF06F#32 19 12 = 255 ∧ bits 0xFFDFF06F#32 20 20 = 1) ∧
    (0x7FFFF06F#32 &&& 0x0000007F#32 = 0x0000006F#32 ∧ bits 0x7FFFF06F#32 31 31 = 0 ∧
      bits 0x7FFFF06F#32 20 20 = 1) := by decide

theorem witness_ShiftAmountIsFiveBitField :
    [0x00001013#32, 0x00005013#32, 0x40005013#32].all fun row =>
      row &&& 0xFE00707F#32 == row && (row ||| 0x01FF8F80#32) &&& 0xFE00707F#32 == row := by decide

theorem witness_EveryImmediateFitsThePort :
    immediateOf (exhibit 0x8000006F#32 .arch).2 = some (-1048576) ∧
    immediateOf (exhibit 0x7FFFF06F#32 .arch).2 = some 1048574 ∧
    immediateOf (exhibit 0xFFF5B513#32 .compat).2 = some 4095 ∧
    immediateOf (exhibit 0x8005D503#32 .compat).2 = some (-2048) := by decide

/-- A word of none of the ten rows, of format I and of format R. -/
theorem witness_ModesDifferOnlyInFourImmediates :
    [0xFFF00013#32, 0x00C58533#32, 0x00000000#32].all fun w =>
      [Kind.sltiu, .beq, .bne, .blt, .bge, .bltu, .bgeu, .lui, .auipc, .jal].all fun k =>
        w &&& tableMask k != tableMatch k := by decide

/-- One word that is no other row's, for the kind at each end of the list. -/
theorem witness_ClassifierMatchesOpcodeTable :
    (Kind.lui ≠ .unknown ∧ 0xFFFFFFB7#32 &&& tableMask .lui = tableMatch .lui) ∧
    (Kind.csrrci ≠ .unknown ∧ 0xFFFFFFF3#32 &&& tableMask .csrrci = tableMatch .csrrci) ∧
    (Kind.fencei ≠ .unknown ∧ 0x0000108F#32 &&& tableMask .fencei ≠ tableMatch .fencei) := by decide

/-- No row matches the all-zero word, the all-one word or MRET. -/
theorem witness_UnknownWordIsOrdinaryOutput (k : Kind) (h : k ≠ .unknown) :
    0x00000000#32 &&& tableMask k ≠ tableMatch k ∧ 0xFFFFFFFF#32 &&& tableMask k ≠ tableMatch k ∧
    0x30200073#32 &&& tableMask k ≠ tableMatch k := by
  revert h
  cases k <;> decide

theorem witness_NoWordMatchesTwoRows :
    Kind.fence ≠ .unknown ∧ 0x0FF0000F#32 &&& tableMask .fence = tableMatch .fence := by decide

/-- A word in each part of the space, and a neighbour of it outside. -/
theorem witness_UnknownSpace :
    (bits 0x0000007F#32 6 0 = 0b1111111 ∧ decodeWord 0x0000007F#32 = .unknown) ∧
    (bits 0x8330000F#32 31 28 = 8 ∧ decodeWord 0x8330000F#32 = .unknown ∧ decodeWord 0x0330000F#32 ≠ .unknown) ∧
    (bits 0x00003463#32 14 12 = 0b011 ∧ decodeWord 0x00003463#32 = .unknown) ∧
    (bits 0x00006003#32 14 12 = 0b110 ∧ decodeWord 0x00006003#32 = .unknown) ∧
    (bits 0x00007023#32 14 12 = 0b111 ∧ decodeWord 0x00007023#32 = .unknown) ∧
    (bits 0x4215D513#32 31 25 = 0b0100001 ∧ decodeWord 0x4215D513#32 = .unknown) ∧
    (bits 0x40C5F533#32 31 25 = 0b0100000 ∧ decodeWord 0x40C5F533#32 = .unknown) ∧
    (bits 0x04C58533#32 31 25 = 0b0000010 ∧ decodeWord 0x04C58533#32 = .unknown) ∧
    (bits 0x00004073#32 14 12 = 0b100 ∧ decodeWord 0x00004073#32 = .unknown) ∧
    (bits 0x00100173#32 14 12 = 0 ∧ decodeWord 0x00100173#32 = .unknown ∧ decodeWord 0x00100073#32 = .ebreak) := by
  decide

theorem witness_DecodeOfEncodeIsIdentity :
    WellFormed (.jal 31 0x1FFFFE) ∧ WellFormed (.bgeu 31 31 0x1FFE) ∧ WellFormed (.csrrci 31 0xFFF 31) ∧
    WellFormed .unknown := by decide

theorem witness_EncodeOfDecodeIsIdentity :
    (decodeWord 0xFF8280E7#32 ≠ .unknown ∧ bits 0xFF8280E7#32 6 0 = 0b1100111 ∧ bits 0xFF8280E7#32 14 12 = 0b000) ∧
    (decodeWord 0xFFFFFFF3#32 ≠ .unknown ∧ bits 0xFFFFFFF3#32 6 0 ≠ 0b1100111) := by decide

theorem witness_UpperImmediateWords :
    [0x00000037#32, 0x00000017#32].all fun row =>
      row &&& 0x0000007F#32 == row && (row ||| 0xFFFFFF80#32) &&& 0x0000007F#32 == row := by decide

theorem witness_JalWords :
    [0x0000006F#32].all fun row =>
      row &&& 0x0000007F#32 == row && (row ||| 0xFFFFFF80#32) &&& 0x0000007F#32 == row := by decide

theorem witness_JalrWords :
    [0x00000067#32].all fun row =>
      row &&& 0x0000007F#32 == row && (row ||| 0xFFFFFF80#32) &&& 0x0000007F#32 == row := by decide

theorem witness_BranchWords :
    [0x00000063#32, 0x00001063#32, 0x00004063#32, 0x00005063#32, 0x00006063#32, 0x00007063#32].all fun row =>
      row &&& 0x0000707F#32 == row && (row ||| 0xFFFF8F80#32) &&& 0x0000707F#32 == row := by decide

theorem witness_LoadWords :
    [0x00000003#32, 0x00001003#32, 0x00002003#32, 0x00004003#32, 0x00005003#32].all fun row =>
      row &&& 0x0000707F#32 == row && (row ||| 0xFFFF8F80#32) &&& 0x0000707F#32 == row := by decide

theorem witness_StoreWords :
    [0x00000023#32, 0x00001023#32, 0x00002023#32].all fun row =>
      row &&& 0x0000707F#32 == row && (row ||| 0xFFFF8F80#32) &&& 0x0000707F#32 == row := by decide

theorem witness_AluImmediateWords :
    [0x00000013#32, 0x00002013#32, 0x00004013#32, 0x00006013#32, 0x00007013#32].all fun row =>
      row &&& 0x0000707F#32 == row && (row ||| 0xFFFF8F80#32) &&& 0x0000707F#32 == row := by decide

theorem witness_SltiuWords :
    [0x00003013#32].all fun row =>
      row &&& 0x0000707F#32 == row && (row ||| 0xFFFF8F80#32) &&& 0x0000707F#32 == row := by decide

theorem witness_ShiftImmediateWords :
    [0x00001013#32, 0x00005013#32, 0x40005013#32].all fun row =>
      row &&& 0xFE00707F#32 == row && (row ||| 0x01FF8F80#32) &&& 0xFE00707F#32 == row := by decide

theorem witness_RegisterRegisterWords :
    [0x00000033#32, 0x40000033#32, 0x00001033#32, 0x00002033#32, 0x00003033#32, 0x00004033#32, 0x00005033#32,
      0x40005033#32, 0x00006033#32, 0x00007033#32].all fun row =>
      row &&& 0xFE00707F#32 == row && (row ||| 0x01FF8F80#32) &&& 0xFE00707F#32 == row := by decide

theorem witness_MultiplyDivideWords :
    [0x02000033#32, 0x02001033#32, 0x02002033#32, 0x02003033#32, 0x02004033#32, 0x02005033#32, 0x02006033#32,
      0x02007033#32].all fun row =>
      row &&& 0xFE00707F#32 == row && (row ||| 0x01FF8F80#32) &&& 0xFE00707F#32 == row := by decide

theorem witness_FenceWords :
    [0x0000000F#32].all fun row =>
      row &&& 0xF00FFFFF#32 == row && (row ||| 0x0FF00000#32) &&& 0xF00FFFFF#32 == row := by decide

theorem witness_CsrRegisterWords :
    [0x00001073#32, 0x00002073#32, 0x00003073#32].all fun row =>
      row &&& 0x0000707F#32 == row && (row ||| 0xFFFF8F80#32) &&& 0x0000707F#32 == row := by decide

theorem witness_CsrImmediateWords :
    [0x00005073#32, 0x00006073#32, 0x00007073#32].all fun row =>
      row &&& 0x0000707F#32 == row && (row ||| 0xFFFF8F80#32) &&& 0x0000707F#32 == row := by decide

theorem witness_NoOperandWords :
    decodeWord 0x0000100F#32 = .fencei ∧ decodeWord 0x00000073#32 = .ecall ∧ decodeWord 0x00100073#32 = .ebreak := by
  decide

/-! States: two words loaded with two labels, before the first step and after it. -/

def loaded : State := State.reset.handOver object15 params0

def loadedOnce : State :=
  { loaded with
    insn := 0x00000013, out := blockDecode .compat 0x00000013, index := 1,
    sink := [ascii "00000000: <second>\t\taddi\tzero, zero, 0\n"] }

theorem witness_step_loaded : step loaded = .next loadedOnce := rfl

theorem witness_step_idle : step { loadedOnce with index := 2 } = .next { loadedOnce with index := 2 } := rfl

theorem witness_WordIsFedLittleEndian :
    (loaded.defect = none ∧ loaded.index < loaded.nWords ∧ Memory.read loaded.mem 0 = some 0x13 ∧
      Memory.read loaded.mem 1 = some 0x00 ∧ Memory.read loaded.mem 2 = some 0x00 ∧
      Memory.read loaded.mem 3 = some 0x00) ∧
    (loadedOnce.defect = none ∧ loadedOnce.index < loadedOnce.nWords ∧ Memory.read loadedOnce.mem 4 = some 0x67 ∧
      Memory.read loadedOnce.mem 5 = some 0x80 ∧ Memory.read loadedOnce.mem 6 = some 0x00 ∧
      Memory.read loadedOnce.mem 7 = some 0x00) := by decide

theorem witness_StepRunsDecodedWord : Feeds loaded 0x00000013 ∧ Feeds loadedOnce 0x00008067 := by
  unfold Feeds
  decide

/-- Two states that decoded different words before and feed the same word in the same mode. -/
theorem witness_OutputsDependOnWordAndModeOnly :
    Feeds loadedOnce 0x00008067 ∧ Feeds (loaded.placeWord 0x00008067) 0x00008067 ∧
    loadedOnce.params.immMode = (loaded.placeWord 0x00008067).params.immMode := by
  unfold Feeds
  decide

theorem witness_RejectedObjectFeedsNothing :
    (loaded.handOver { object15 with defect := some .badMagic } params0).defect = some .badMagic ∧
    ({ object15 with defect := some .unreadable } : ObjectFile).defect = some .unreadable := by decide

/-- A next state of an instruction and of a step exists. -/
theorem witness_frames : ∃ t u, exec (.sw 2 1 12) loaded = .next t ∧ step loaded = .next u :=
  ⟨_, _, rfl, witness_step_loaded⟩

theorem witness_SafeMachineNeverStops : Safe loaded := by
  refine ⟨rfl, fun k hk => ?_⟩
  change k < 2 at hk
  interval_cases k <;> decide

/-- The invariant before the first word, between two words, and after the last, where a step still answers. -/
theorem witness_StepKeepsInvariant :
    (Inv loaded ∧ step loaded = .next loadedOnce) ∧ Inv loadedOnce ∧
    Inv State.reset ∧ step State.reset = .next State.reset := by
  have code : CodeLoaded loaded := witness_SafeMachineNeverStops.2
  refine ⟨⟨⟨by decide, code, by decide, ⟨rfl, fun k hk => absurd hk (Nat.not_lt_zero k)⟩, ?_, ?_⟩,
      witness_step_loaded⟩, ⟨by decide, code, by decide, ⟨rfl, fun k hk => ?_⟩, ?_, ?_⟩,
    ⟨List.Pairwise.nil, fun k hk => absurd hk (Nat.not_lt_zero k), Nat.le_refl 0,
      ⟨rfl, fun k hk => absurd hk (Nat.not_lt_zero k)⟩, ?_, ?_⟩, rfl⟩
  · exact fun h => absurd h (Nat.lt_irrefl 0)
  · exact fun h => absurd h (Nat.lt_irrefl 0)
  · obtain rfl : k = 0 := Nat.lt_one_iff.mp hk
    exact ⟨0x00000013, by decide, by decide⟩
  · exact fun _ => rfl
  · exact fun _ => by decide
  · exact fun h => absurd h (Nat.lt_irrefl 0)
  · exact fun h => absurd h (Nat.lt_irrefl 0)

/-- An accepted object with words, a name before its terminator, and an empty name. -/
theorem witness_HandOverKeepsWordsAndSymbols :
    object15.defect = none ∧ 1 < object15.codeWords.length ∧ 0 < object15.symbols.length ∧
    (named "first" 0 0x12).stringBytes = ascii "first" ++ 0 :: [0x78] ∧ (0 : Byte) ∉ ascii "first" ∧
    (named "" 0 0x12).stringBytes = [] ++ 0 :: [0x78] := by decide

theorem witness_PassWritesTheListing : object15.defect = none ∧ ({ object15 with codeWords := [] }).defect = none := by
  decide

/-- An accepted object with words and a symbol, over a state that a pass has written to, and a rejected one. -/
theorem witness_HandOverCompletesTheBootStepsInOrder :
    (object15.defect = none ∧ 1 < object15.codeWords.length ∧ 0 < object15.symbols.length) ∧
    ({ object15 with defect := some .badMagic } : ObjectFile).defect = some .badMagic ∧
    ¬(loadedOnce.sink = [] ∨ loadedOnce.index = 0) := by decide

/-- R324, R349: a host that halts in step (1) does not reach step (2) nor step (3). -/
theorem test_rejected_object_is_not_loaded_and_fixes_no_parameter :
    let t := loaded.handOver { object15 with defect := some .badMagic, base := 4 }
      { immMode := .arch, hexCase := .upper, lineAddr := .sectionOffset }
    t.params = params0 ∧ t.base = object15.base ∧ t.nWords = 0 := by decide

/-- Two matching symbols, no matching symbol, and an object symbol at the address. -/
theorem witness_LabelIsLastMatchingFunction :
    label loaded.symbols 0 = some (ascii "second") ∧ label loaded.symbols 4 = none ∧
    label (at215 .lower .absolute 0).symbols 0x10078 = none := by decide

/-- The two line addresses differ at a non-zero base. -/
theorem witness_LineBeginsWithAddressAndLabel :
    (at215 .upper .absolute 2).base.toNat + 4 * 2 = 0x1007C ∧
    label (at215 .upper .sectionOffset 2).symbols 0x1007C = some (ascii "g") := by decide

theorem witness_DecimalReadsBack :
    decimal (-2048) = ascii "-2048" ∧ decimal 0 = ascii "0" ∧ decimalNat 4095 = ascii "4095" := by decide

end Sys2Proof.Tests
end

section
/-! PROOFS of the family `30_encoding.md`. A row of the opcode table that fixes all 32 bits is one word, so its kind is
that word and no other (R90); an extracted field as a quotient and a remainder (R72). -/

namespace Sys2Proof

/-- The row of the kind fixes all 32 bits, so that it matches one word only. -/
abbrev Kind.FixesEveryBit (k : Kind) : Prop := tableMask k = 0xFFFFFFFF#32

/-! ## The families below the whole-word checks yield no whole-word kind (R93 to R98) -/

theorem not_fixesEveryBit_classifyBranch (f3 : BitVec 3) : ¬(classifyBranch f3).FixesEveryBit := by
  unfold classifyBranch; split <;> decide

theorem not_fixesEveryBit_classifyLoad (f3 : BitVec 3) : ¬(classifyLoad f3).FixesEveryBit := by
  unfold classifyLoad; split <;> decide

theorem not_fixesEveryBit_classifyStore (f3 : BitVec 3) : ¬(classifyStore f3).FixesEveryBit := by
  unfold classifyStore; split <;> decide

theorem not_fixesEveryBit_classifyOpImm (f3 : BitVec 3) (f7 : BitVec 7) :
    ¬(classifyOpImm f3 f7).FixesEveryBit := by
  unfold classifyOpImm; repeat' split
  all_goals decide

theorem not_fixesEveryBit_classifyOp (f3 : BitVec 3) (f7 : BitVec 7) :
    ¬(classifyOp f3 f7).FixesEveryBit := by
  unfold classifyOp; repeat' split
  all_goals decide

theorem not_fixesEveryBit_classifySystem (f3 : BitVec 3) : ¬(classifySystem f3).FixesEveryBit := by
  unfold classifySystem; split <;> decide

/-! ## Whole-word matches -/

theorem not_fixesEveryBit_ite {c : Prop} [Decidable c] {k l : Kind} (hk : ¬k.FixesEveryBit) (hl : ¬l.FixesEveryBit) :
    ¬(if c then k else l).FixesEveryBit :=
  iteInduction (motive := (¬Kind.FixesEveryBit ·)) (fun _ => hk) fun _ => hl

/-- The value of a row's fixed bits, every other bit 0, is a word of the row's own kind. -/
theorem classify_tableMatch (k : Kind) : classify (tableMatch k) = k := by
  cases k <;> decide

/-- Below the three whole-word equations no check of the classifier leads to a row that fixes every bit: not FENCE
(R91), not the four opcodes matched alone (R92), no family (R93 to R98), not UNKNOWN (R99). -/
theorem not_fixesEveryBit_classify {w : Word} (hEcall : w ≠ 0x00000073#32) (hEbreak : w ≠ 0x00100073#32)
    (hFencei : w ≠ 0x0000100F#32) : ¬(classify w).FixesEveryBit := by
  rw [classify, if_neg hEcall, if_neg hEbreak, if_neg hFencei]
  iterate 5 refine not_fixesEveryBit_ite (by decide) ?_
  exact not_fixesEveryBit_ite (not_fixesEveryBit_classifyBranch _) <|
    not_fixesEveryBit_ite (not_fixesEveryBit_classifyLoad _) <|
    not_fixesEveryBit_ite (not_fixesEveryBit_classifyStore _) <|
    not_fixesEveryBit_ite (not_fixesEveryBit_classifyOpImm _ _) <|
    not_fixesEveryBit_ite (not_fixesEveryBit_classifyOp _ _) <|
    not_fixesEveryBit_ite (not_fixesEveryBit_classifySystem _) (by decide)

theorem eq_tableMatch_classify {w : Word} (h : (classify w).FixesEveryBit) : w = tableMatch (classify w) := by
  by_cases hEcall : w = 0x00000073#32
  · subst hEcall; decide
  by_cases hEbreak : w = 0x00100073#32
  · subst hEbreak; decide
  by_cases hFencei : w = 0x0000100F#32
  · subst hFencei; decide
  exact absurd h (not_fixesEveryBit_classify hEcall hEbreak hFencei)

theorem classify_eq_iff_eq_tableMatch {k : Kind} (hk : k.FixesEveryBit) (w : Word) :
    classify w = k ↔ w = tableMatch k := by
  constructor
  · rintro rfl
    exact eq_tableMatch_classify hk
  · rintro rfl
    exact classify_tableMatch k

/-- An instruction without operands is decoded exactly where the classifier gives its kind. -/
theorem decodeWord_eq_iff_classify_eq {i : Instr} (hi : ∀ w, instrOf i.kind w = i) (w : Word) :
    decodeWord w = i ↔ classify w = i.kind := by
  constructor
  · rintro rfl
    exact (kind_decodeWord w).symm
  · intro h
    rw [decodeWord, h, hi]

theorem decodeWord_eq_iff_eq_tableMatch {i : Instr} (hi : ∀ w, instrOf i.kind w = i)
    (hk : i.kind.FixesEveryBit) (w : Word) : decodeWord w = i ↔ w = tableMatch i.kind :=
  (decodeWord_eq_iff_classify_eq hi w).trans (classify_eq_iff_eq_tableMatch hk w)

/-- Settles O13: each of the three has no operands and a row that fixes every bit. -/
theorem wholeWordMatches : Obligations.WholeWordMatches := fun w =>
  ⟨decodeWord_eq_iff_eq_tableMatch (i := .ecall) (fun _ => rfl) rfl w,
    decodeWord_eq_iff_eq_tableMatch (i := .ebreak) (fun _ => rfl) rfl w,
    decodeWord_eq_iff_eq_tableMatch (i := .fencei) (fun _ => rfl) rfl w⟩

/-! ## The BitfieldExtractor as arithmetic (R72) -/

theorem toNat_extract (w : Word) (hi lo : Nat) :
    (extract w hi lo).toNat = w.toNat / 2 ^ lo % 2 ^ (hi - lo + 1) := by
  rw [extract, BitVec.extractLsb_toNat, Nat.shiftRight_eq_div_pow]

theorem toNat_extract_whole (w : Word) : (extract w 31 0).toNat = w.toNat := by
  rw [toNat_extract, Nat.pow_zero, Nat.div_one, Nat.mod_eq_of_lt w.isLt]

theorem toNat_extract_bit (w : Word) (b : Nat) : (extract w b b).toNat = (w.getLsbD b).toNat := by
  rw [toNat_extract, Nat.sub_self, Nat.zero_add, Nat.pow_one, BitVec.getLsbD, Nat.toNat_testBit]

/-- Settles O1: the quotient and remainder, and its two readings at the ends of the range of widths. -/
theorem extractIsQuotientAndRemainder : Obligations.ExtractIsQuotientAndRemainder := fun w =>
  ⟨fun hi lo _ _ => toNat_extract w hi lo, toNat_extract_whole w, fun b _ => toNat_extract_bit w b⟩

end Sys2Proof
end

section
/-! PROOFS of the family `60_exceptions.md`. The block raises no exception (R300): every instruction delivers its record,
and to deliver a record is to complete. -/

namespace Sys2Proof.Machine

/-- Delivering a record has no fault and no refusal to answer: its one line is out and the position has moved (R300,
R346). -/
theorem deliver_completes (k : Kind) (ops : Operands) (s : State) :
    ∃ t, deliver k ops s = .next t ∧ t.sink = s.sink ++ [s.line k ops] ∧ t.index = s.index + 1 := by
  have hnext : deliver k ops s = .next (((s.drive (outputs k ops)).emit (s.line k ops)).advance) := rfl
  obtain ⟨-, hsink, hindex, -⟩ := deliver_spec hnext
  exact ⟨_, hnext, hsink, hindex⟩

/-- Settles O37: whatever the instruction, `exec` delivers its record. -/
theorem everyInstructionCompletes : Obligations.EveryInstructionCompletes := by
  intro i s
  obtain ⟨t, hnext, hsink, hindex⟩ := deliver_completes i.kind (operandsOf s.params.immMode i) s
  exact ⟨t, _, (exec_eq_deliver i s).trans hnext, hsink, hindex⟩

end Sys2Proof.Machine
end

section
/-! PROOFS of the decoder's rows. A word that a row of the opcode table matches has the row's fields where the row fixes
them (R89), so the classifier gives the row's kind, and the encoder, which writes a format's fields and the row's fixed
fields, gives the word back. -/

namespace Sys2Proof

/-! ## What a row of the opcode table says about the fields of a word -/

/-- A word the row of `k` matches has the row's bits in every range that the row fixes. -/
theorem extractLsb'_of_row {k : Kind} {w : Word} {lo n : Nat} (h : w &&& tableMask k = tableMatch k)
    (hfix : (tableMask k).extractLsb' lo n = BitVec.allOnes n) :
    w.extractLsb' lo n = (tableMatch k).extractLsb' lo n := by
  rw [← h, BitVec.extractLsb'_and, hfix, BitVec.and_allOnes]

theorem opField_of_row {k : Kind} {w : Word} (hk : k ≠ .unknown) (h : w &&& tableMask k = tableMatch k) :
    opField w = opField (tableMatch k) :=
  extractLsb'_of_row h <| by
    cases k with
    | unknown => exact absurd rfl hk
    | _ => rfl

theorem f3Field_of_row {k : Kind} {w : Word} (h : w &&& tableMask k = tableMatch k)
    (hfix : f3Field (tableMask k) = BitVec.allOnes 3) : f3Field w = f3Field (tableMatch k) :=
  extractLsb'_of_row h hfix

theorem f7Field_of_row {k : Kind} {w : Word} (h : w &&& tableMask k = tableMatch k)
    (hfix : f7Field (tableMask k) = BitVec.allOnes 7) : f7Field w = f7Field (tableMatch k) :=
  extractLsb'_of_row h hfix

/-- A row that fixes all 32 bits matches its own value only (R90). -/
theorem eq_tableMatch_of_row {k : Kind} {w : Word} (hk : k.FixesEveryBit) (h : w &&& tableMask k = tableMatch k) :
    w = tableMatch k := by
  rw [← h, hk]
  exact BitVec.and_allOnes.symm

/-! ## The classifier on the words of a row -/

theorem classify_of_row {k : Kind} {w : Word} (hk : k ≠ .unknown) (h : w &&& tableMask k = tableMatch k) :
    classify w = k := by
  have hop := opField_of_row hk h
  cases k with
  | unknown => exact absurd rfl hk
  | lui => exact classify_lui hop
  | auipc => exact classify_auipc hop
  | jal => exact classify_jal hop
  | jalr => exact classify_jalr hop
  | beq | bne | blt | bge | bltu | bgeu => rw [classify_branch hop, f3Field_of_row h rfl]; rfl
  | lb | lh | lw | lbu | lhu => rw [classify_load hop, f3Field_of_row h rfl]; rfl
  | sb | sh | sw => rw [classify_store hop, f3Field_of_row h rfl]; rfl
  | addi | slti | sltiu | xori | ori | andi => rw [classify_opImm hop, f3Field_of_row h rfl]; rfl
  | slli | srli | srai => rw [classify_opImm hop, f3Field_of_row h rfl, f7Field_of_row h rfl]; rfl
  | add | sub | sll | slt | sltu | xor | srl | sra | or | and | mul | mulh | mulhsu | mulhu | div | divu | rem | remu =>
    rw [classify_op hop, f3Field_of_row h rfl, f7Field_of_row h rfl]; rfl
  | fence =>
    obtain ⟨hfm, hlo⟩ := (and_fenceMask w 0b0000#4 0x0000F#20).mp h
    exact classify_fence hfm hlo
  | fencei | ecall | ebreak => rw [eq_tableMatch_of_row rfl h]; exact classify_tableMatch _
  | csrrw | csrrs | csrrc | csrrwi | csrrsi | csrrci =>
    have h3 := f3Field_of_row h rfl
    rw [classify_system hop (by rw [h3]; decide), h3]; rfl

theorem decodeWord_of_row {k : Kind} {w : Word} (hk : k ≠ .unknown) (h : w &&& tableMask k = tableMatch k) :
    decodeWord w = instrOf k w := by
  rw [decodeWord, classify_of_row hk h]

/-! ## The row of the kind a word is classified as -/

/-- The row of `k` fixes the opcode and funct3 at the values given and nothing else. -/
abbrev Kind.RowIs3 (k : Kind) (f3 : BitVec 3) (op : BitVec 7) : Prop :=
  tableMask k = 0x0000707F#32 ∧ tableMatch k = 0#17 ++ f3 ++ 0#5 ++ op

/-- The row of `k` fixes the opcode, funct3 and funct7 at the values given and nothing else. -/
abbrev Kind.RowIs7 (k : Kind) (f7 : BitVec 7) (f3 : BitVec 3) (op : BitVec 7) : Prop :=
  tableMask k = 0xFE00707F#32 ∧ tableMatch k = f7 ++ 0#10 ++ f3 ++ 0#5 ++ op

theorem row_of_rowIs3 {k : Kind} {w : Word} {op : BitVec 7} (hop : opField w = op) (h : k.RowIs3 (f3Field w) op) :
    w &&& tableMask k = tableMatch k := by
  rw [h.1, h.2]
  exact (and_funct3Mask w _ _).mpr ⟨rfl, hop⟩

theorem row_of_rowIs7 {k : Kind} {w : Word} {op : BitVec 7} (hop : opField w = op)
    (h : k.RowIs7 (f7Field w) (f3Field w) op) : w &&& tableMask k = tableMatch k := by
  rw [h.1, h.2]
  exact (and_funct7Mask w _ _ _).mpr ⟨rfl, rfl, hop⟩

theorem rowIs3_classifyBranch :
    ∀ f3, classifyBranch f3 ≠ .unknown → (classifyBranch f3).RowIs3 f3 0b1100011#7 := by
  decide

theorem rowIs3_classifyLoad : ∀ f3, classifyLoad f3 ≠ .unknown → (classifyLoad f3).RowIs3 f3 0b0000011#7 := by
  decide

theorem rowIs3_classifyStore : ∀ f3, classifyStore f3 ≠ .unknown → (classifyStore f3).RowIs3 f3 0b0100011#7 := by
  decide

theorem rowIs3_classifySystem :
    ∀ f3, classifySystem f3 ≠ .unknown → (classifySystem f3).RowIs3 f3 0b1110011#7 := by
  decide

/-- Of OP-IMM only the two shift values of funct3 fix funct7 too (R96). -/
theorem row_classifyOpImm (f3 : BitVec 3) (f7 : BitVec 7) (h : classifyOpImm f3 f7 ≠ .unknown) :
    (classifyOpImm f3 f7).RowIs3 f3 0b0010011#7 ∨ (classifyOpImm f3 f7).RowIs7 f7 f3 0b0010011#7 := by
  by_cases h0 : f7 = 0b0000000#7
  · subst h0; revert f3; decide
  by_cases h32 : f7 = 0b0100000#7
  · subst h32; revert f3; decide
  refine .inl ?_
  simp only [classifyOpImm, if_neg h0, if_neg h32] at h ⊢
  revert f3; decide

theorem rowIs7_classifyOp (f3 : BitVec 3) (f7 : BitVec 7) (h : classifyOp f3 f7 ≠ .unknown) :
    (classifyOp f3 f7).RowIs7 f7 f3 0b0110011#7 := by
  by_cases h0 : f7 = 0b0000000#7
  · subst h0; revert f3; decide
  by_cases h32 : f7 = 0b0100000#7
  · subst h32; revert f3; decide
  by_cases h1 : f7 = 0b0000001#7
  · subst h1; revert f3; decide
  exact absurd (by simp only [classifyOp, if_neg h0, if_neg h32, if_neg h1]) h

/-- The row of `k`, unless `k` is UNKNOWN, which has none, matches the word. -/
abbrev Kind.FitsWord (k : Kind) (w : Word) : Prop :=
  k ≠ .unknown → w &&& tableMask k = tableMatch k

theorem fitsWord_ite {c : Prop} [Decidable c] {k l : Kind} {w : Word} (hk : c → k.FitsWord w) (hl : l.FitsWord w) :
    (if c then k else l).FitsWord w :=
  iteInduction (motive := (Kind.FitsWord · w)) hk fun _ => hl

/-- Check by check of the classifier: the kind it answers has a row that matches the word. -/
theorem fitsWord_classify (w : Word) : (classify w).FitsWord w := by
  unfold classify
  exact
    fitsWord_ite (fun hw _ => by subst hw; decide) <|
    fitsWord_ite (fun hw _ => by subst hw; decide) <|
    fitsWord_ite (fun hw _ => by subst hw; decide) <|
    fitsWord_ite (fun hf _ => (and_fenceMask w _ _).mpr hf) <|
    fitsWord_ite (fun hop _ => (and_opcodeMask w _).mpr hop) <|
    fitsWord_ite (fun hop _ => (and_opcodeMask w _).mpr hop) <|
    fitsWord_ite (fun hop _ => (and_opcodeMask w _).mpr hop) <|
    fitsWord_ite (fun hop _ => (and_opcodeMask w _).mpr hop) <|
    fitsWord_ite (fun hop h => row_of_rowIs3 hop (rowIs3_classifyBranch _ h)) <|
    fitsWord_ite (fun hop h => row_of_rowIs3 hop (rowIs3_classifyLoad _ h)) <|
    fitsWord_ite (fun hop h => row_of_rowIs3 hop (rowIs3_classifyStore _ h)) <|
    fitsWord_ite (fun hop h => (row_classifyOpImm _ _ h).elim (row_of_rowIs3 hop) (row_of_rowIs7 hop)) <|
    fitsWord_ite (fun hop h => row_of_rowIs7 hop (rowIs7_classifyOp _ _ h)) <|
    fitsWord_ite (fun hop h => row_of_rowIs3 hop (rowIs3_classifySystem _ h)) <|
    fun h => absurd rfl h

theorem classify_eq_iff_row {k : Kind} (hk : k ≠ .unknown) (w : Word) :
    classify w = k ↔ w &&& tableMask k = tableMatch k := by
  constructor
  · rintro rfl
    exact fitsWord_classify w hk
  · exact classify_of_row hk

theorem classify_eq_unknown_iff (w : Word) :
    classify w = .unknown ↔ ∀ k, k ≠ Kind.unknown → w &&& tableMask k ≠ tableMatch k := by
  constructor
  · intro h k hk hrow
    exact hk ((classify_of_row hk hrow).symm.trans h)
  · intro h
    by_contra hk
    exact h _ hk (fitsWord_classify w hk)

/-! ## Encoding the fields of a word gives the word back -/

theorem encodeR_fields {w : Word} {f7 : BitVec 7} {f3 : BitVec 3} {op : BitVec 7} (h7 : f7Field w = f7)
    (h3 : f3Field w = f3) (hop : opField w = op) : encodeR f7 f3 op (rdField w) (rs1Field w) (rs2Field w) = w := by
  subst h7 h3 hop
  apply BitVec.eq_of_getLsbD_eq
  intro i hi
  simp only [encodeR, f7Field_eq, f3Field_eq, opField_eq, rdField_eq, rs1Field_eq, rs2Field_eq,
    BitVec.getLsbD_append, BitVec.getLsbD_extractLsb']
  interval_cases i <;> simp

theorem encodeI_fields {w : Word} {f3 : BitVec 3} {op : BitVec 7} (h3 : f3Field w = f3) (hop : opField w = op) :
    encodeI f3 op (rdField w) (rs1Field w) (immIField w) = w := by
  subst h3 hop
  apply BitVec.eq_of_getLsbD_eq
  intro i hi
  simp only [encodeI, f3Field_eq, opField_eq, rdField_eq, rs1Field_eq, immIField_eq,
    BitVec.getLsbD_append, BitVec.getLsbD_extractLsb']
  interval_cases i <;> simp

theorem encodeS_fields {w : Word} {f3 : BitVec 3} (h3 : f3Field w = f3) (hop : opField w = 0b0100011#7) :
    encodeS f3 (rs1Field w) (rs2Field w) (immSField w) = w := by
  subst h3
  apply BitVec.eq_of_getLsbD_eq
  intro i hi
  simp only [encodeS, ← hop, f3Field_eq, opField_eq, rs1Field_eq, rs2Field_eq, immSField_eq,
    BitVec.getLsbD_append, BitVec.getLsbD_extractLsb']
  interval_cases i <;> simp

theorem encodeB_fields {w : Word} {f3 : BitVec 3} (h3 : f3Field w = f3) (hop : opField w = 0b1100011#7) :
    encodeB f3 (rs1Field w) (rs2Field w) (immBField w) = w := by
  subst h3
  apply BitVec.eq_of_getLsbD_eq
  intro i hi
  simp only [encodeB, ← hop, f3Field_eq, opField_eq, rs1Field_eq, rs2Field_eq, immBField_eq,
    BitVec.getLsbD_append, BitVec.getLsbD_extractLsb']
  interval_cases i <;> simp

theorem encodeU_fields {w : Word} {op : BitVec 7} (hop : opField w = op) :
    encodeU op (rdField w) (immUField w) = w := by
  subst hop
  apply BitVec.eq_of_getLsbD_eq
  intro i hi
  simp only [encodeU, opField_eq, rdField_eq, immUField_eq, BitVec.getLsbD_append, BitVec.getLsbD_extractLsb']
  interval_cases i <;> simp

theorem encodeJ_fields {w : Word} (hop : opField w = 0b1101111#7) : encodeJ (rdField w) (immJField w) = w := by
  apply BitVec.eq_of_getLsbD_eq
  intro i hi
  simp only [encodeJ, ← hop, opField_eq, rdField_eq, immJField_eq, BitVec.getLsbD_append, BitVec.getLsbD_extractLsb']
  interval_cases i <;> simp

theorem encodeFence_fields {w : Word} (hfm : fmField w = 0b0000#4) (hlo : lo20Field w = 0x0000F#20) :
    encodeFence (predField w) (succField w) = w := by
  apply BitVec.eq_of_getLsbD_eq
  intro i hi
  simp only [encodeFence, ← hfm, ← hlo, fmField_eq, lo20Field_eq, predField_eq, succField_eq,
    BitVec.getLsbD_append, BitVec.getLsbD_extractLsb']
  interval_cases i <;> simp

/-- SHIFT has the fields of R, the amount at the place of rs2 (R68). -/
theorem encodeShift_fields {w : Word} {f7 : BitVec 7} {f3 : BitVec 3} (h7 : f7Field w = f7) (h3 : f3Field w = f3)
    (hop : opField w = 0b0010011#7) : encodeShift f7 f3 (rdField w) (rs1Field w) (shamtField w) = w :=
  encodeR_fields h7 h3 hop

/-- CSR and CSRI have the fields of I, the number at the place of the immediate (R70, R71). -/
theorem encodeCsr_fields {w : Word} {f3 : BitVec 3} (h3 : f3Field w = f3) (hop : opField w = 0b1110011#7) :
    encodeCsr f3 (rdField w) (csrField w) (rs1Field w) = w :=
  encodeI_fields h3 hop

/-- But for the funct3 of JALR, which its row leaves open, a row and the operands fix every bit of a word. -/
theorem encode_instrOf_of_row {k : Kind} {w : Word} (hk : k ≠ .unknown) (h : w &&& tableMask k = tableMatch k)
    (hjalr : k = .jalr → f3Field w = 0b000#3) : encode (instrOf k w) = w := by
  have hop := opField_of_row hk h
  cases k with
  | unknown => exact absurd rfl hk
  | lui | auipc => exact encodeU_fields hop
  | jal => exact encodeJ_fields hop
  | jalr => exact encodeI_fields (hjalr rfl) hop
  | beq | bne | blt | bge | bltu | bgeu => exact encodeB_fields (f3Field_of_row h rfl) hop
  | lb | lh | lw | lbu | lhu | addi | slti | sltiu | xori | ori | andi =>
    exact encodeI_fields (f3Field_of_row h rfl) hop
  | sb | sh | sw => exact encodeS_fields (f3Field_of_row h rfl) hop
  | slli | srli | srai => exact encodeShift_fields (f7Field_of_row h rfl) (f3Field_of_row h rfl) hop
  | add | sub | sll | slt | sltu | xor | srl | sra | or | and | mul | mulh | mulhsu | mulhu | div | divu | rem | remu =>
    exact encodeR_fields (f7Field_of_row h rfl) (f3Field_of_row h rfl) hop
  | fence =>
    obtain ⟨hfm, hlo⟩ := (and_fenceMask w 0b0000#4 0x0000F#20).mp h
    exact encodeFence_fields hfm hlo
  | fencei | ecall | ebreak => exact (eq_tableMatch_of_row rfl h).symm
  | csrrw | csrrs | csrrc | csrrwi | csrrsi | csrrci => exact encodeCsr_fields (f3Field_of_row h rfl) hop

end Sys2Proof
end

section
/-! PROOFS of the family `30_encoding.md`: decoder and encoder undo each other, and the classifier is the opcode
table. -/

namespace Sys2Proof

open Laws Machine

/-! ## Decoding what was encoded -/

theorem classify_encode : ∀ i : Instr, classify (encode i) = i.kind
  | .lui .. => EncodeClassified.lui ..
  | .auipc .. => EncodeClassified.auipc ..
  | .jal .. => EncodeClassified.jal ..
  | .jalr .. => EncodeClassified.jalr ..
  | .beq .. => EncodeClassified.beq ..
  | .bne .. => EncodeClassified.bne ..
  | .blt .. => EncodeClassified.blt ..
  | .bge .. => EncodeClassified.bge ..
  | .bltu .. => EncodeClassified.bltu ..
  | .bgeu .. => EncodeClassified.bgeu ..
  | .lb .. => EncodeClassified.lb ..
  | .lh .. => EncodeClassified.lh ..
  | .lw .. => EncodeClassified.lw ..
  | .lbu .. => EncodeClassified.lbu ..
  | .lhu .. => EncodeClassified.lhu ..
  | .sb .. => EncodeClassified.sb ..
  | .sh .. => EncodeClassified.sh ..
  | .sw .. => EncodeClassified.sw ..
  | .addi .. => EncodeClassified.addi ..
  | .slti .. => EncodeClassified.slti ..
  | .sltiu .. => EncodeClassified.sltiu ..
  | .xori .. => EncodeClassified.xori ..
  | .ori .. => EncodeClassified.ori ..
  | .andi .. => EncodeClassified.andi ..
  | .slli .. => EncodeClassified.slli ..
  | .srli .. => EncodeClassified.srli ..
  | .srai .. => EncodeClassified.srai ..
  | .add .. => EncodeClassified.add ..
  | .sub .. => EncodeClassified.sub ..
  | .sll .. => EncodeClassified.sll ..
  | .slt .. => EncodeClassified.slt ..
  | .sltu .. => EncodeClassified.sltu ..
  | .xor .. => EncodeClassified.xor ..
  | .srl .. => EncodeClassified.srl ..
  | .sra .. => EncodeClassified.sra ..
  | .or .. => EncodeClassified.or ..
  | .and .. => EncodeClassified.and ..
  | .mul .. => EncodeClassified.mul ..
  | .mulh .. => EncodeClassified.mulh ..
  | .mulhsu .. => EncodeClassified.mulhsu ..
  | .mulhu .. => EncodeClassified.mulhu ..
  | .div .. => EncodeClassified.div ..
  | .divu .. => EncodeClassified.divu ..
  | .rem .. => EncodeClassified.rem ..
  | .remu .. => EncodeClassified.remu ..
  | .fence .. => EncodeClassified.fence ..
  | .fencei => EncodeClassified.fencei
  | .ecall => EncodeClassified.ecall
  | .ebreak => EncodeClassified.ebreak
  | .csrrw .. => EncodeClassified.csrrw ..
  | .csrrs .. => EncodeClassified.csrrs ..
  | .csrrc .. => EncodeClassified.csrrc ..
  | .csrrwi .. => EncodeClassified.csrrwi ..
  | .csrrsi .. => EncodeClassified.csrrsi ..
  | .csrrci .. => EncodeClassified.csrrci ..
  | .unknown => EncodeClassified.unknown

/-- The encoder puts every operand where the decoder looks for it; bit 0 of an offset, which has no place in the word,
is where well-formedness comes in (R65, R67). -/
theorem instrOf_encode {i : Instr} (hwf : WellFormed i) : instrOf i.kind (encode i) = i := by
  cases i with
  | jal rd imm => simp [Instr.kind, encode, instrOf, immJField_encodeJ rd hwf]
  | beq rs1 rs2 imm | bne rs1 rs2 imm | blt rs1 rs2 imm | bge rs1 rs2 imm | bltu rs1 rs2 imm | bgeu rs1 rs2 imm =>
    simp [Instr.kind, encode, instrOf, immBField_encodeB _ rs1 rs2 hwf]
  | _ => simp [Instr.kind, encode, instrOf]

/-- Settles O17: the classifier finds the kind again, and the kind's fields are the operands. -/
theorem decodeOfEncodeIsIdentity : Obligations.DecodeOfEncodeIsIdentity := by
  intro i hwf
  rw [decodeWord, classify_encode, instrOf_encode hwf]

/-! ## Fields as numbers -/

theorem bits_opcode (w : Word) : bits w 6 0 = (opField w).toNat := bits_eq w 6 0
theorem bits_funct3 (w : Word) : bits w 14 12 = (f3Field w).toNat := bits_eq w 14 12
theorem bits_funct7 (w : Word) : bits w 31 25 = (f7Field w).toNat := bits_eq w 31 25
theorem bits_fm (w : Word) : bits w 31 28 = (fmField w).toNat := bits_eq w 31 28
theorem bits_lo20 (w : Word) : bits w 19 0 = (lo20Field w).toNat := bits_eq w 19 0

theorem decodeWord_eq_unknown_iff (w : Word) : decodeWord w = .unknown ↔ classify w = .unknown :=
  decodeWord_eq_iff_classify_eq (i := .unknown) (fun _ => rfl) w

/-- Settles O18: the row of the word's kind fixes what the operands leave open. -/
theorem encodeOfDecodeIsIdentity : Obligations.EncodeOfDecodeIsIdentity := by
  intro w hknown hjalr
  have hk : classify w ≠ .unknown := mt (decodeWord_eq_unknown_iff w).mpr hknown
  refine encode_instrOf_of_row hk (fitsWord_classify w hk) fun hkind => ?_
  have hop : bits w 6 0 = 0b1100111 := by
    rw [bits_opcode, opField_of_row hk (fitsWord_classify w hk), hkind]
    rfl
  have h3 := hjalr hop
  rw [bits_funct3] at h3
  exact BitVec.eq_of_toNat_eq h3

/-! ## The classifier and the opcode table -/

/-- Settles O11: the classifier's answer has a row that matches, and a row that matches has the classifier's answer. -/
theorem classifierMatchesOpcodeTable : Obligations.ClassifierMatchesOpcodeTable := fun w =>
  ⟨fun _ hk => classify_eq_iff_row hk w, classify_eq_unknown_iff w, kind_decodeWord w⟩

/-- Settles O12: both kinds are the one the classifier gives. -/
theorem noWordMatchesTwoRows : Obligations.NoWordMatchesTwoRows := fun _ _ _ hk hl hrowk hrowl =>
  (classify_of_row hk hrowk).symm.trans (classify_of_row hl hrowl)

/-- A row that fixes the opcode alone matches the words with that opcode (R92). -/
theorem classify_eq_iff_opcode {k : Kind} {op : BitVec 7} (hk : k ≠ .unknown) (hmask : tableMask k = 0x0000007F#32)
    (hmatch : tableMatch k = 0#25 ++ op) (w : Word) : classify w = k ↔ bits w 6 0 = op.toNat := by
  rw [classify_eq_iff_row hk, hmask, hmatch, and_opcodeMask, bits_opcode, BitVec.toNat_inj]

/-- Settles O14: the four rows fix nothing but the opcode. -/
theorem opcodeAloneMatches : Obligations.OpcodeAloneMatches := fun w =>
  ⟨classify_eq_iff_opcode (op := 0b0110111#7) (by decide) rfl rfl w,
    classify_eq_iff_opcode (op := 0b0010111#7) (by decide) rfl rfl w,
    classify_eq_iff_opcode (op := 0b1101111#7) (by decide) rfl rfl w,
    classify_eq_iff_opcode (op := 0b1100111#7) (by decide) rfl rfl w⟩

/-- Settles O16: the classifier and the fields, evaluated on the fourteen words. -/
theorem vectorWordsDecode : Obligations.VectorWordsDecode := by
  unfold Obligations.VectorWordsDecode
  decide

end Sys2Proof
end

section
/-! PROOFS of the family `30_encoding.md`: the UNKNOWN space, opcode by opcode (R115). -/

namespace Sys2Proof

open Machine

/-! ## Where each family answers UNKNOWN (R93 to R98) -/

theorem classifyBranch_eq_unknown_iff : ∀ f3, classifyBranch f3 = .unknown ↔ f3.toNat ∈ [0b010, 0b011] := by
  decide

theorem classifyLoad_eq_unknown_iff : ∀ f3, classifyLoad f3 = .unknown ↔ f3.toNat ∈ [0b011, 0b110, 0b111] := by
  decide

theorem classifyStore_eq_unknown_iff :
    ∀ f3, classifyStore f3 = .unknown ↔ f3.toNat ∈ [0b011, 0b100, 0b101, 0b110, 0b111] := by
  decide

theorem classifySystem_eq_unknown_iff :
    ∀ f3, classifySystem f3 = .unknown ↔ f3.toNat = 0b100 ∨ f3.toNat = 0b000 := by
  decide

theorem classifyOpImm_eq_unknown_iff (f3 : BitVec 3) (f7 : BitVec 7) :
    classifyOpImm f3 f7 = .unknown ↔
      (f3.toNat = 0b001 ∧ f7.toNat ≠ 0b0000000) ∨ (f3.toNat = 0b101 ∧ f7.toNat ∉ [0b0000000, 0b0100000]) := by
  by_cases h0 : f7 = 0b0000000#7
  · subst h0; revert f3; decide
  by_cases h32 : f7 = 0b0100000#7
  · subst h32; revert f3; decide
  have hn0 : f7.toNat ≠ 0b0000000 := fun h => h0 (BitVec.eq_of_toNat_eq h)
  have hn32 : f7.toNat ≠ 0b0100000 := fun h => h32 (BitVec.eq_of_toNat_eq h)
  simp only [classifyOpImm, if_neg h0, if_neg h32, List.mem_cons, List.not_mem_nil, hn0, hn32, or_self,
    not_false_eq_true, ne_eq, and_true]
  revert f3; decide

theorem classifyOp_eq_unknown_iff (f3 : BitVec 3) (f7 : BitVec 7) :
    classifyOp f3 f7 = .unknown ↔
      f7.toNat ∉ [0b0000000, 0b0100000, 0b0000001] ∨ (f7.toNat = 0b0100000 ∧ f3.toNat ∉ [0b000, 0b101]) := by
  by_cases h0 : f7 = 0b0000000#7
  · subst h0; revert f3; decide
  by_cases h32 : f7 = 0b0100000#7
  · subst h32; revert f3; decide
  by_cases h1 : f7 = 0b0000001#7
  · subst h1; revert f3; decide
  have hn : f7.toNat ∉ [0b0000000, 0b0100000, 0b0000001] := by
    simp only [← BitVec.toNat_inj] at h0 h32 h1
    simpa using ⟨h0, h32, h1⟩
  simp only [classifyOp, if_neg h0, if_neg h32, if_neg h1, hn, not_false_eq_true, true_or]

theorem toNat_eq_iff_eq {n k : Nat} {x y : BitVec n} (hy : y.toNat = k) : x.toNat = k ↔ x = y := by
  rw [← hy, BitVec.toNat_inj]

theorem fencePattern_iff (w : Word) :
    ((fmField w).toNat = 0 ∧ (lo20Field w).toNat = 0x0000F) ↔ fmField w = 0b0000#4 ∧ lo20Field w = 0x0000F#20 :=
  and_congr (toNat_eq_iff_eq rfl) (toNat_eq_iff_eq rfl)

/-- Of MISC-MEM, FENCE.I and the FENCE pattern are known (R90, R91). -/
theorem classify_miscMem_eq_unknown_iff {w : Word} (hop : opField w = 0b0001111#7) :
    classify w = .unknown ↔ w ≠ 0x0000100F#32 ∧ ¬((fmField w).toNat = 0 ∧ (lo20Field w).toNat = 0x0000F) := by
  rw [fencePattern_iff]
  by_cases hi : w = 0x0000100F#32
  · subst hi; decide
  by_cases hf : fmField w = 0b0000#4 ∧ lo20Field w = 0x0000F#20
  · simp [classify_fence hf.1 hf.2, hf]
  have he : w ≠ 0x00000073#32 := by rintro rfl; exact absurd hop (by decide)
  have hb : w ≠ 0x00100073#32 := by rintro rfl; exact absurd hop (by decide)
  have hrest : classify w = .unknown := by
    simp only [classify, if_neg he, if_neg hb, if_neg hi, if_neg hf, hop]
    rfl
  simp only [hrest, ne_eq, hi, hf, not_false_eq_true, and_self]

/-- Of SYSTEM, the CSR values of funct3 and the two whole words with funct3 `000` are known (R90, R98). -/
theorem classify_system_eq_unknown_iff {w : Word} (hop : opField w = 0b1110011#7) :
    classify w = .unknown ↔
      (f3Field w).toNat = 0b100 ∨ ((f3Field w).toNat = 0b000 ∧ w ≠ 0x00000073#32 ∧ w ≠ 0x00100073#32) := by
  by_cases he : w = 0x00000073#32
  · subst he; decide
  by_cases hb : w = 0x00100073#32
  · subst hb; decide
  have hi : w ≠ 0x0000100F#32 := by rintro rfl; exact absurd hop (by decide)
  have hf : ¬(fmField w = 0b0000#4 ∧ lo20Field w = 0x0000F#20) := fun hf =>
    absurd (hop.symm.trans (opField_of_lo20Field hf.2)) (by decide)
  have hrest : classify w = classifySystem (f3Field w) := by
    simp only [classify, if_neg he, if_neg hb, if_neg hi, if_neg hf, hop]
    rfl
  rw [hrest, classifySystem_eq_unknown_iff]
  simp [he, hb]

/-- The opcodes of the map (R115). -/
def knownOpcodes : List (BitVec 7) :=
  [0b0110111#7, 0b0010111#7, 0b1101111#7, 0b1100111#7, 0b1100011#7, 0b0000011#7, 0b0100011#7, 0b0010011#7, 0b0110011#7,
    0b0001111#7, 0b1110011#7]

theorem classify_of_not_mem_knownOpcodes {w : Word} (h : opField w ∉ knownOpcodes) : classify w = .unknown := by
  simp only [knownOpcodes, List.mem_cons, List.not_mem_nil, or_false, not_or] at h
  obtain ⟨h1, h2, h3, h4, h5, h6, h7, h8, h9, hm, hs⟩ := h
  rw [classify_of_opField hs hm]
  simp only [if_neg h1, if_neg h2, if_neg h3, if_neg h4, if_neg h5, if_neg h6, if_neg h7, if_neg h8, if_neg h9]

/-- Settles O15: outside the eleven opcodes every word is UNKNOWN; under each of them one line of the list is left. -/
theorem unknownSpace : Obligations.UnknownSpace := by
  intro w
  rw [decodeWord_eq_unknown_iff]
  simp only [bits_opcode, bits_funct3, bits_funct7, bits_fm, bits_lo20]
  by_cases hop : opField w ∈ knownOpcodes
  · simp only [knownOpcodes, List.mem_cons, List.not_mem_nil, or_false] at hop
    rcases hop with hop | hop | hop | hop | hop | hop | hop | hop | hop | hop | hop
    · rw [classify_lui hop, hop]
      simp
    · rw [classify_auipc hop, hop]
      simp
    · rw [classify_jal hop, hop]
      simp
    · rw [classify_jalr hop, hop]
      simp
    · rw [classify_branch hop, classifyBranch_eq_unknown_iff, hop]
      simp
    · rw [classify_load hop, classifyLoad_eq_unknown_iff, hop]
      simp
    · rw [classify_store hop, classifyStore_eq_unknown_iff, hop]
      simp
    · rw [classify_opImm hop, classifyOpImm_eq_unknown_iff, hop]
      simp
    · rw [classify_op hop, classifyOp_eq_unknown_iff, hop]
      simp
    · rw [classify_miscMem_eq_unknown_iff hop, hop]
      simp
    · rw [classify_system_eq_unknown_iff hop, hop]
      simp
  · have hnat : (opField w).toNat ∉ knownOpcodes.map BitVec.toNat := by
      simpa only [List.mem_map, BitVec.toNat_inj, exists_eq_right] using hop
    exact iff_of_true (classify_of_not_mem_knownOpcodes hop) (.inl hnat)

end Sys2Proof
end

section
/-! PROOFS of the effect of every instruction: its frame, its record on the ports with the ports its format leaves at 0
(R23), and the refinement of the exhibit of R102. -/

namespace Sys2Proof.Machine

/-! ## What `exec` answers -/

theorem sameHost_of_deliver {k : Kind} {ops : Operands} {s t : State} (h : deliver k ops s = .next t) :
    SameHost s t := by
  obtain ⟨-, -, -, hparams, hinsn, hmem, hwords, hbase, hsymbols, hdefect⟩ := deliver_spec h
  exact ⟨hparams, hinsn, fun a => by rw [hmem], hwords, hbase, hsymbols, hdefect⟩

/-- Settles O38: an instruction delivers its record, which leaves the host's data alone. -/
theorem instructionsChangeNothingElse : Obligations.InstructionsChangeNothingElse := fun i s _ h =>
  sameHost_of_deliver ((exec_eq_deliver i s).symm.trans h)

/-- The ports an instruction drives in a mode. -/
def portsOf (m : ImmMode) (i : Instr) : Outputs :=
  outputs i.kind (operandsOf m i)

/-- Every instruction completes with the ports and the line of its record. -/
theorem exec_delivers (i : Instr) (s : State) :
    Delivers s i (portsOf s.params.immMode i) (lineTail i.kind (operandsOf s.params.immMode i)) := by
  refine ⟨_, exec_eq_deliver i s, ?_⟩
  obtain ⟨hout, hsink, hindex, -⟩ := deliver_spec (k := i.kind) (ops := operandsOf s.params.immMode i) (s := s) rfl
  exact ⟨hout, hsink, hindex, sameHost_of_deliver rfl⟩

theorem exec_out (i : Instr) (s : State) : ∃ t, exec i s = .next t ∧ t.out = portsOf s.params.immMode i := by
  obtain ⟨t, hexec, hout, -⟩ := exec_delivers i s
  exact ⟨t, hexec, hout⟩

/-! ## The ports by format (R22, R23, R110) -/

theorem kind_o_portsOf (m : ImmMode) (i : Instr) : (portsOf m i).kind_o = kindCode i.kind := by
  cases i <;> rfl

theorem fmt_o_portsOf (m : ImmMode) (i : Instr) : (portsOf m i).fmt_o = formatCode (kindFormat i.kind) := by
  cases i <;> rfl

/-- Settles O40: the two codes are those of the kind and of the kind's format, so the table is checked kind by kind. -/
theorem kindDeterminesFormat : Obligations.KindDeterminesFormat := by
  intro i s
  obtain ⟨t, hexec, hout⟩ := exec_out i s
  refine ⟨t, hexec, ?_⟩
  rw [hout, kind_o_portsOf, fmt_o_portsOf]
  generalize i.kind = k
  cases k <;> decide

/-- Settles O39: format by format of the record, the ports R23 does not list keep their default. -/
theorem unusedPortsAreZero : Obligations.UnusedPortsAreZero := by
  intro i s
  obtain ⟨t, hexec, hout⟩ := exec_out i s
  refine ⟨t, hexec, ?_⟩
  rw [hout, portsOf]
  generalize operandsOf s.params.immMode i = ops
  cases ops <;> simp [outputs, formatOf, formatCode]

/-! ## The exhibit of R102 is the classifier with the operands of the kind -/

/-- The record of a word under a kind: what the exhibit writes out line by line. -/
def recordOf (m : ImmMode) (w : Word) (k : Kind) : Kind × Operands :=
  (k, operandsOf m (instrOf k w))

theorem ofNat_bits_rd (w : Word) : BitVec.ofNat 5 (bits w 11 7) = rdField w := by
  rw [bits_eq, BitVec.ofNat_toNat, BitVec.setWidth_eq, rdField_eq]

theorem ofNat_bits_rs1 (w : Word) : BitVec.ofNat 5 (bits w 19 15) = rs1Field w := by
  rw [bits_eq, BitVec.ofNat_toNat, BitVec.setWidth_eq, rs1Field_eq]

theorem ofNat_bits_rs2 (w : Word) : BitVec.ofNat 5 (bits w 24 20) = rs2Field w := by
  rw [bits_eq, BitVec.ofNat_toNat, BitVec.setWidth_eq, rs2Field_eq]

theorem ofNat_bits_csr (w : Word) : BitVec.ofNat 12 (bits w 31 20) = csrField w := by
  rw [bits_eq, BitVec.ofNat_toNat, BitVec.setWidth_eq, csrField_eq]

theorem ofNat_bits_pred (w : Word) : BitVec.ofNat 4 (bits w 27 24) = predField w := by
  rw [bits_eq, BitVec.ofNat_toNat, BitVec.setWidth_eq, predField_eq]

theorem ofNat_bits_succ (w : Word) : BitVec.ofNat 4 (bits w 23 20) = succField w := by
  rw [bits_eq, BitVec.ofNat_toNat, BitVec.setWidth_eq, succField_eq]

theorem bits_immI (w : Word) : bits w 31 20 = (immIField w).toNat := bits_eq w 31 20
theorem bits_immU (w : Word) : bits w 31 12 = (immUField w).toNat := bits_eq w 31 12

/-- One question of the exhibit against the same question of the classifier. -/
theorem ite_eq_recordOf {m : ImmMode} {w : Word} {c d : Prop} [Decidable c] [Decidable d] {x y : Kind × Operands}
    {k l : Kind} (hq : d ↔ c) (hx : x = recordOf m w k) (hy : y = recordOf m w l) :
    (if d then x else y) = recordOf m w (if c then k else l) := by
  rw [if_congr hq hx hy]
  exact (apply_ite (recordOf m w) c k l).symm

/-- The exhibit asks the classifier's questions in the classifier's order, and under each answer its record is that of
the kind. -/
theorem exhibit_eq (w : Word) (m : ImmMode) : exhibit w m = recordOf m w (classify w) := by
  have h3 := (f3Field w).isLt
  unfold exhibit classify classifyBranch classifyLoad classifyStore classifyOpImm classifyOp classifySystem
  simp only [ofNat_bits_rd, ofNat_bits_rs1, ofNat_bits_rs2, ofNat_bits_csr, ofNat_bits_pred, ofNat_bits_succ]
  simp only [bits_opcode, bits_funct3, bits_funct7, bits_fm, bits_lo20, bits_immI, bits_immU,
    exhibitImmS_eq, exhibitImmB_eq, exhibitImmJ_eq]
  generalize (f3Field w).toNat = f3 at h3 ⊢
  iterate 3 refine ite_eq_recordOf (toNat_eq_iff_eq rfl) rfl ?_
  refine ite_eq_recordOf (fencePattern_iff w) rfl ?_
  iterate 4 refine ite_eq_recordOf (toNat_eq_iff_eq rfl) (by cases m <;> rfl) ?_
  refine ite_eq_recordOf (toNat_eq_iff_eq rfl) ?branch <|
    ite_eq_recordOf (toNat_eq_iff_eq rfl) ?load <|
    ite_eq_recordOf (toNat_eq_iff_eq rfl) ?store <|
    ite_eq_recordOf (toNat_eq_iff_eq rfl) ?opImm <|
    ite_eq_recordOf (toNat_eq_iff_eq rfl) ?op <|
    ite_eq_recordOf (toNat_eq_iff_eq rfl) ?system rfl
  case branch => interval_cases f3 <;> cases m <;> rfl
  case load | store | system => interval_cases f3 <;> rfl
  case opImm =>
    interval_cases f3
    · rfl
    · exact ite_eq_recordOf (toNat_eq_iff_eq rfl) rfl rfl
    · rfl
    · cases m <;> rfl
    · rfl
    · exact ite_eq_recordOf (toNat_eq_iff_eq rfl) rfl (ite_eq_recordOf (toNat_eq_iff_eq rfl) rfl rfl)
    · rfl
    · rfl
  case op =>
    refine ite_eq_recordOf (toNat_eq_iff_eq rfl) ?_ <|
      ite_eq_recordOf (toNat_eq_iff_eq rfl) ?_ <|
      ite_eq_recordOf (toNat_eq_iff_eq rfl) ?_ rfl
    all_goals interval_cases f3 <;> rfl

theorem exhibit_eq_decodeWord (w : Word) (m : ImmMode) :
    exhibit w m = ((decodeWord w).kind, operandsOf m (decodeWord w)) := by
  rw [exhibit_eq, recordOf, kind_decodeWord, decodeWord]

theorem blockDecode_eq (m : ImmMode) (w : Word) : blockDecode m w = portsOf m (decodeWord w) := by
  rw [blockDecode, exhibit_eq_decodeWord, portsOf]

/-- Settles O36: what an instruction delivers is the exhibit's record. -/
theorem execRefinesExhibit : Obligations.ExecRefinesExhibit := by
  intro s w
  rw [blockDecode_eq, exhibit_eq_decodeWord]
  exact exec_delivers (decodeWord w) s

end Sys2Proof.Machine
end

section
/-! PROOFS of the pass: what a step does to a machine (R346, R351), the invariant every step keeps, and the listing that
a whole pass writes. -/

namespace Sys2Proof.Machine

/-! ## One step -/

/-- A step that feeds a word puts it on the input and runs it. -/
theorem step_of_feeds {s : State} {w : Word} (h : Feeds s w) : step s = exec (decodeWord w) (s.present w) := by
  obtain ⟨hdefect, hindex, hword⟩ := h
  simp only [step, hdefect, if_pos hindex, hword]

/-- A step that answers a state idles or runs the word it feeds. -/
theorem step_next_cases {s t : State} (h : step s = .next t) :
    (s.nWords ≤ s.index ∧ t = s) ∨ ∃ w, Feeds s w ∧ exec (decodeWord w) (s.present w) = .next t := by
  obtain ⟨d, -, hstep⟩ | ⟨-, hdone, hstep⟩ | ⟨-, -, -, hstep⟩ | ⟨w, hdefect, hindex, hword, hstep⟩ :=
    step_cases s
  · cases hstep.symm.trans h
  · cases hstep.symm.trans h
    exact .inl ⟨hdone, rfl⟩
  · cases hstep.symm.trans h
  · exact .inr ⟨w, ⟨hdefect, hindex, hword⟩, hstep.symm.trans h⟩

/-- Settles O41: to put a word on the input changes the input alone. -/
theorem stepRunsDecodedWord : Obligations.StepRunsDecodedWord := fun _ _ h => step_of_feeds h

/-- What the loader handed over and the host fixed for the pass is the same in both states (R47, R50, R322). -/
structure SameLoad (s t : State) : Prop where
  params : t.params = s.params
  mem : t.mem = s.mem
  nWords : t.nWords = s.nWords
  base : t.base = s.base
  symbols : t.symbols = s.symbols
  defect : t.defect = s.defect

/-- The state that running a word leaves, next to the state that fed it. -/
structure Fed (s : State) (w : Word) (t : State) : Prop where
  load : SameLoad s t
  insn : t.insn = w
  out : t.out = blockDecode s.params.immMode w
  sink : t.sink = s.sink ++ [listingLine s.params s.base s.symbols s.index w]
  index : t.index = s.index + 1

theorem fed_of_exec {s t : State} {w : Word} (h : exec (decodeWord w) (s.present w) = .next t) : Fed s w t := by
  rw [exec_eq_deliver] at h
  obtain ⟨hout, hsink, hindex, hparams, hinsn, hmem, hwords, hbase, hsymbols, hdefect⟩ := deliver_spec h
  exact
    { load := ⟨hparams, hmem, hwords, hbase, hsymbols, hdefect⟩
      insn := hinsn
      out := by rw [hout, blockDecode_eq]; rfl
      sink := by rw [hsink, listingLine, exhibit_eq_decodeWord]; rfl
      index := hindex }

/-- A step that feeds a word goes on. -/
theorem step_feeds {s : State} {w : Word} (h : Feeds s w) : ∃ t, step s = .next t ∧ Fed s w t := by
  obtain ⟨t, hexec, -⟩ := exec_delivers (decodeWord w) (s.present w)
  exact ⟨t, (step_of_feeds h).trans hexec, fed_of_exec hexec⟩

theorem sameLoad_of_step {s t : State} (h : step s = .next t) : SameLoad s t := by
  obtain ⟨-, rfl⟩ | ⟨w, -, hexec⟩ := step_next_cases h
  · exact ⟨rfl, rfl, rfl, rfl, rfl, rfl⟩
  · exact (fed_of_exec hexec).load

/-- Settles O44: a step idles or feeds a word, and neither touches what was handed over. -/
theorem stepLeavesHandedOverDataFixed : Obligations.StepLeavesHandedOverDataFixed := by
  intro s t h
  obtain ⟨hparams, hmem, hwords, hbase, hsymbols, hdefect⟩ := sameLoad_of_step h
  exact ⟨hparams, fun a => by rw [hmem], hwords, hbase, hsymbols, hdefect⟩

/-- Settles O42: both steps leave the block's decode of the same word in the same mode on the ports. -/
theorem outputsDependOnWordAndModeOnly : Obligations.OutputsDependOnWordAndModeOnly := by
  intro s₁ s₂ w h₁ h₂ hmode
  obtain ⟨t₁, hstep₁, hfed₁⟩ := step_feeds h₁
  obtain ⟨t₂, hstep₂, hfed₂⟩ := step_feeds h₂
  exact ⟨t₁, t₂, hstep₁, hstep₂, by rw [hfed₁.out, hfed₂.out, hmode], hfed₁.out⟩

theorem step_rejected {s : State} {d : ObjectDefect} (h : s.defect = some d) :
    step s = .refused (.objectRejected d) := by
  simp only [step, h]

/-- Settles O43: a recorded defect refuses every step, and the hand-over of a defective object records it. -/
theorem rejectedObjectFeedsNothing : Obligations.RejectedObjectFeedsNothing := by
  refine ⟨fun s d h => step_rejected h, fun s o p d h => ?_⟩
  rw [s.handOver_rejected h p]
  exact ⟨rfl, step_rejected h⟩

/-! ## The word a step feeds (R42) -/

theorem readWord_of_bytes {m : List Host.Cell} {k : Nat} {b0 b1 b2 b3 : Byte} (h0 : Memory.read m (4 * k) = some b0)
    (h1 : Memory.read m (4 * k + 1) = some b1) (h2 : Memory.read m (4 * k + 2) = some b2)
    (h3 : Memory.read m (4 * k + 3) = some b3) : Memory.readWord m k = some (wordOfBytes b0 b1 b2 b3) := by
  simp only [Memory.readWord, h0, h1, h2, h3]

theorem toNat_wordOfBytes (b0 b1 b2 b3 : Byte) :
    (wordOfBytes b0 b1 b2 b3).toNat = b0.toNat + 256 * b1.toNat + 65536 * b2.toNat + 16777216 * b3.toNat := by
  have h0 := b0.isLt
  have h1 := b1.isLt
  have h2 := b2.isLt
  simp only [wordOfBytes, BitVec.toNat_append]
  rw [← Nat.shiftLeft_add_eq_or_of_lt h2, ← Nat.shiftLeft_add_eq_or_of_lt h1, ← Nat.shiftLeft_add_eq_or_of_lt h0]
  omega

theorem extractLsb'_wordOfBytes_highest (b0 b1 b2 b3 : Byte) : (wordOfBytes b0 b1 b2 b3).extractLsb' 24 8 = b3 := by
  apply BitVec.eq_of_getLsbD_eq
  intro i hi
  simp only [wordOfBytes, BitVec.getLsbD_append, BitVec.getLsbD_extractLsb']
  interval_cases i <;> simp

/-- Settles O19: the step feeds the four bytes' word, and the lowest position is the lowest byte. -/
theorem wordIsFedLittleEndian : Obligations.WordIsFedLittleEndian := by
  intro s b0 b1 b2 b3 hdefect hindex h0 h1 h2 h3
  obtain ⟨t, hstep, hfed⟩ := step_feeds ⟨hdefect, hindex, readWord_of_bytes h0 h1 h2 h3⟩
  refine ⟨t, hstep, ?_⟩
  rw [hfed.insn]
  exact ⟨toNat_wordOfBytes b0 b1 b2 b3, BitVec.extractLsb'_append_eq_right,
    extractLsb'_wordOfBytes_highest b0 b1 b2 b3, fun rest => rfl⟩

/-! ## Safety and the invariant -/

theorem codeLoaded_of_sameLoad {s t : State} (h : CodeLoaded s) (hload : SameLoad s t) : CodeLoaded t := by
  intro k hk
  rw [hload.mem]
  exact h k (hload.nWords ▸ hk)

theorem safe_of_sameLoad {s t : State} (h : Safe s) (hload : SameLoad s t) : Safe t := by
  obtain ⟨hdefect, hcode⟩ := h
  exact ⟨hload.defect.trans hdefect, codeLoaded_of_sameLoad hcode hload⟩

/-- A safe machine with a word left feeds it. -/
theorem feeds_of_safe {s : State} (h : Safe s) (hindex : s.index < s.nWords) : ∃ w, Feeds s w := by
  obtain ⟨w, hw⟩ := Option.isSome_iff_exists.mp (h.2 s.index hindex)
  exact ⟨w, h.1, hindex, hw⟩

theorem step_of_complete {s : State} (hdefect : s.defect = none) (h : s.nWords ≤ s.index) : step s = .next s := by
  simp only [step, hdefect, if_neg (Nat.not_lt.mpr h)]

/-- Settles O45: a safe machine feeds the next word or has fed them all. -/
theorem safeMachineNeverStops : Obligations.SafeMachineNeverStops := by
  intro s h
  by_cases hindex : s.index < s.nWords
  · obtain ⟨w, hw⟩ := feeds_of_safe h hindex
    obtain ⟨t, hstep, hfed⟩ := step_feeds hw
    exact ⟨t, hstep, safe_of_sameLoad h hfed.load⟩
  · exact ⟨s, step_of_complete h.1 (Nat.le_of_not_lt hindex), h⟩

/-- A line more for a word more: the lines before stay, and the new one is that of the word fed. -/
theorem listingSoFar_of_fed {s t : State} {w : Word} (h : ListingSoFar s) (hw : s.nextWord = some w)
    (hfed : Fed s w t) : ListingSoFar t := by
  obtain ⟨hlength, hlines⟩ := h
  obtain ⟨⟨hparams, hmem, -, hbase, hsymbols, -⟩, -, -, hsink, hindex⟩ := hfed
  refine ⟨by rw [hsink, hindex, List.length_append, hlength]; rfl, fun k hk => ?_⟩
  rw [hsink, hmem, hparams, hbase, hsymbols]
  rw [hindex] at hk
  obtain hk | rfl := Nat.lt_succ_iff_lt_or_eq.mp hk
  · rw [List.getElem?_append_left (hlength ▸ hk)]
    exact hlines k hk
  · exact ⟨w, hw, by rw [← hlength, List.getElem?_concat_length]⟩

theorem inv_of_fed {s t : State} {w : Word} (h : Inv s) (hw : Feeds s w) (hfed : Fed s w t) : Inv t := by
  obtain ⟨hwf, hcode, -, hlisting, -, -⟩ := h
  obtain ⟨-, hindex, hword⟩ := hw
  refine ⟨hfed.load.mem ▸ hwf, codeLoaded_of_sameLoad hcode hfed.load, ?_, listingSoFar_of_fed hlisting hword hfed,
    fun _ => ?_, fun _ => ?_⟩
  · rw [hfed.index, hfed.load.nWords]
    exact hindex
  · rw [hfed.out, hfed.insn, hfed.load.params]
  · rw [hfed.index, hfed.insn, hfed.load.mem]
    exact hword

/-- Settles O46: a step that idles changes nothing, and one that feeds a word adds the word's line and its decode. -/
theorem stepKeepsInvariant : Obligations.StepKeepsInvariant := by
  intro s t h hstep
  obtain ⟨-, rfl⟩ | ⟨w, hw, hexec⟩ := step_next_cases hstep
  · exact h
  · exact inv_of_fed h hw (fed_of_exec hexec)

/-- Before the first word the invariant asks for a canonical and whole code buffer and an empty sink. -/
theorem inv_of_no_word_fed {s : State} (hwf : Memory.wf s.mem) (hcode : CodeLoaded s) (hindex : s.index = 0)
    (hsink : s.sink = []) : Inv s := by
  refine ⟨hwf, hcode, by omega, ⟨by rw [hsink, hindex]; rfl, fun k hk => ?_⟩, fun hk => ?_, fun hk => ?_⟩
  all_goals omega

/-- Settles O47: nothing has been handed over and nothing fed. -/
theorem resetMeetsInvariant : Obligations.ResetMeetsInvariant :=
  inv_of_no_word_fed State.wf_reset (fun k hk => absurd hk (Nat.not_lt_zero k)) rfl rfl

/-! ## The hand-over -/

/-- Byte `j` of word `k` stands at position `4 * k + j` of the section. -/
theorem getElem?_flatMap_bytesOfWord (ws : List Word) (k : Nat) {j : Nat} (hj : j < 4) :
    (ws.flatMap bytesOfWord)[4 * k + j]? = ws[k]?.bind fun w => (bytesOfWord w)[j]? := by
  induction ws generalizing k with
  | nil => simp
  | cons w ws ih =>
    rw [List.flatMap_cons]
    cases k with
    | zero =>
      rw [List.getElem?_append_left (by simpa [bytesOfWord] using hj)]
      simp
    | succ k =>
      have hlength : (bytesOfWord w).length = 4 := rfl
      have hoffset : 4 * (k + 1) + j - (bytesOfWord w).length = 4 * k + j := by omega
      rw [List.getElem?_append_right (by omega), hoffset, ih k]
      rfl

theorem read_writeBytes_nil (bs : List Byte) (a : Nat) : Memory.read (Memory.writeBytes [] 0 bs) a = bs[a]? := by
  by_cases h : a < bs.length
  · rw [List.getElem?_eq_getElem h, ← Memory.read_writeBytes_inside [] 0 bs h, Nat.zero_add]
  · rw [List.getElem?_eq_none (Nat.le_of_not_lt h), Memory.read_writeBytes_outside [] bs (.inr (by omega))]
    rfl

theorem readWord_loaded (ws : List Word) {k : Nat} (h : k < ws.length) :
    Memory.readWord (Memory.writeBytes [] 0 (ws.flatMap bytesOfWord)) k = some ws[k] := by
  have byteAt (j : Nat) (hj : j < 4) :
      Memory.read (Memory.writeBytes [] 0 (ws.flatMap bytesOfWord)) (4 * k + j) = (bytesOfWord ws[k])[j]? := by
    rw [read_writeBytes_nil, getElem?_flatMap_bytesOfWord ws k hj, List.getElem?_eq_getElem h, Option.bind_some]
  rw [readWord_of_bytes (byteAt 0 (by omega)) (byteAt 1 (by omega)) (byteAt 2 (by omega)) (byteAt 3 (by omega)),
    wordOfBytes_bytesOfWord]

theorem safe_handOver (s : State) {o : ObjectFile} (h : o.defect = none) (p : Params) : Safe (s.handOver o p) := by
  rw [s.handOver_accepted h p]
  refine ⟨h, fun k hk => ?_⟩
  exact Option.isSome_of_eq_some (readWord_loaded o.codeWords hk)

theorem codeLoaded_handOver (s : State) (o : ObjectFile) (p : Params) : CodeLoaded (s.handOver o p) := by
  cases h : o.defect with
  | none => exact (safe_handOver s h p).2
  | some d =>
    rw [s.handOver_rejected h p]
    exact fun k hk => absurd hk (Nat.not_lt_zero k)

theorem index_handOver (s : State) (o : ObjectFile) (p : Params) : (s.handOver o p).index = 0 := by
  unfold State.handOver; split <;> rfl

theorem sink_handOver (s : State) (o : ObjectFile) (p : Params) : (s.handOver o p).sink = [] := by
  unfold State.handOver; split <;> rfl

/-- Settles O48: a hand-over ends before the first word, with a whole code buffer or an empty one. -/
theorem handOverMeetsInvariant : Obligations.HandOverMeetsInvariant := fun s o p =>
  inv_of_no_word_fed (s.wf_handOver o p) (codeLoaded_handOver s o p) (index_handOver s o p) (sink_handOver s o p)

theorem resolveName_of_terminated {name : List Byte} (rest : List Byte) (h : (0 : Byte) ∉ name) :
    resolveName (name ++ 0 :: rest) = name := by
  have hall : ∀ b ∈ name, (b != 0) = true := fun b hb => bne_iff_ne.mpr fun h0 => h (h0 ▸ hb)
  rw [resolveName, List.takeWhile_append_of_pos hall]
  simp

/-- Settles O49: the load is of the whole section, and each name ends at its first `0x00`. -/
theorem handOverKeepsWordsAndSymbols : Obligations.HandOverKeepsWordsAndSymbols := by
  intro s o p h
  rw [s.handOver_accepted h p]
  refine ⟨rfl, rfl, rfl, fun k hk => readWord_loaded o.codeWords hk, List.length_map _, ?_⟩
  intro k hk name rest hname hzero
  have hresolved : resolveName o.symbols[k].stringBytes = name := by rw [hname, resolveName_of_terminated rest hzero]
  simp [resolveSymbol, List.getElem?_eq_getElem hk, hresolved]

/-- Settles O55: each step sets what it is for and keeps the rest; the defect decides whether the last two are done. -/
theorem handOverCompletesTheBootStepsInOrder : Obligations.HandOverCompletesTheBootStepsInOrder := by
  intro s o p
  refine ⟨⟨rfl, fun _ => rfl, rfl, rfl, rfl, rfl, ?_⟩, fun d h => ?_, fun h => ?_, ?_⟩
  · rintro w ⟨-, hleft, -⟩
    exact Nat.not_lt_zero _ hleft
  · exact ⟨s.handOver_rejected h p, s.handOver_rejected h p ▸ step_rejected h⟩
  · exact ⟨step_of_complete h (Nat.le_refl 0), rfl, rfl, rfl, fun k hk => readWord_loaded o.codeWords hk, rfl,
      s.handOver_accepted h p⟩
  · refine ⟨?_, ?_, index_handOver s o p, sink_handOver s o p⟩ <;> unfold State.handOver <;> split <;> rfl

/-! ## A whole pass -/

theorem run_succ {s t : State} (h : step s = .next t) (k : Nat) : core.run (k + 1) s = core.run k t := by
  have hstep : core.step s = .next t := h
  simp only [Host.Core.run, hstep]

theorem SameLoad.refl (s : State) : SameLoad s s := ⟨rfl, rfl, rfl, rfl, rfl, rfl⟩

theorem SameLoad.trans {s t u : State} (h : SameLoad s t) (h' : SameLoad t u) : SameLoad s u :=
  ⟨h'.params.trans h.params, h'.mem.trans h.mem, h'.nWords.trans h.nWords, h'.base.trans h.base,
    h'.symbols.trans h.symbols, h'.defect.trans h.defect⟩

/-- A safe machine runs any number of steps; each feeds a word until none is left. -/
theorem run_of_safe (n : Nat) {s : State} (hsafe : Safe s) (hinv : Inv s) :
    ∃ t : State, core.run n s = .next t ∧ Inv t ∧ SameLoad s t ∧ t.index = min (s.index + n) s.nWords := by
  induction n generalizing s with
  | zero =>
    have ⟨_, _, hindex, _⟩ := hinv
    exact ⟨s, rfl, hinv, SameLoad.refl s, by omega⟩
  | succ n ih =>
    by_cases hleft : s.index < s.nWords
    · obtain ⟨w, hw⟩ := feeds_of_safe hsafe hleft
      obtain ⟨u, hstep, hfed⟩ := step_feeds hw
      obtain ⟨t, hrun, hinv', hload, hindex⟩ := ih (safe_of_sameLoad hsafe hfed.load) (inv_of_fed hinv hw hfed)
      refine ⟨t, (run_succ hstep n).trans hrun, hinv', hfed.load.trans hload, ?_⟩
      rw [hindex, hfed.index, hfed.load.nWords, Nat.add_right_comm, Nat.add_assoc]
    · obtain ⟨t, hrun, hinv', hload, hindex⟩ := ih hsafe hinv
      have hdone := Nat.le_of_not_lt hleft
      exact ⟨t, (run_succ (step_of_complete hsafe.1 hdone) n).trans hrun, hinv', hload, by omega⟩

/-- Once every word of the section is fed, the sink is the listing of the section. -/
theorem sink_of_listingSoFar {s : State} {ws : List Word} (h : ListingSoFar s) (hindex : s.index = ws.length)
    (hwords : ∀ k (hk : k < ws.length), Memory.readWord s.mem k = some ws[k]) :
    s.sink = ws.mapIdx fun k w => listingLine s.params s.base s.symbols k w := by
  obtain ⟨hlength, hlines⟩ := h
  refine List.ext_getElem (by rw [hlength, hindex, List.length_mapIdx]) fun k hk _ => ?_
  rw [hlength] at hk
  obtain ⟨w, hw, hline⟩ := hlines k hk
  have hkw : ws[k]'(hindex ▸ hk) = w := Option.some.inj ((hwords k (hindex ▸ hk)).symm.trans hw)
  rw [List.getElem_mapIdx, hkw]
  exact (List.getElem?_eq_some_iff.mp hline).2

/-- Settles O50: the run is safe from the hand-over on, and its invariant says what the sink holds. -/
theorem passWritesTheListing : Obligations.PassWritesTheListing := by
  intro s o p extra h
  obtain ⟨t, hrun, hinv, hload, hindex⟩ :=
    run_of_safe (o.codeWords.length + extra) (safe_handOver s h p) (handOverMeetsInvariant s o p)
  rw [s.handOver_accepted h p] at hload
  rw [s.handOver_accepted h p] at hindex
  have hcount : t.index = o.codeWords.length := by
    simpa using hindex
  have hwords : ∀ k (hk : k < o.codeWords.length), Memory.readWord t.mem k = some o.codeWords[k] := fun k hk => by
    rw [hload.mem]
    exact readWord_loaded o.codeWords hk
  refine ⟨t, hrun, ?_, hcount⟩
  obtain ⟨-, -, -, hlisting, -, -⟩ := hinv
  rw [sink_of_listingSoFar hlisting hcount hwords, hload.params, hload.base, hload.symbols]
  rfl

end Sys2Proof.Machine
end

section
/-! PROOFS of the result of every family's words: the row gives the instruction, the instruction its record, and the
record its ports and its line. -/

namespace Sys2Proof.Machine

/-! ## The line of a record with operands (R344) -/

/-- The kind's format carries operands (R23, R110). -/
abbrev HasOperands (k : Kind) : Prop :=
  kindFormat k ≠ .none ∧ kindFormat k ≠ .unknown

theorem ne_unknown_of_hasOperands {k : Kind} (hk : HasOperands k) : k ≠ .unknown := by
  rintro rfl
  exact hk.2 rfl

theorem lineTail_of_hasOperands {i : Instr} (hi : HasOperands i.kind) (m : ImmMode) :
    lineTail i.kind (operandsOf m i) =
      operandTail (mnemonicName i.kind) (operandString (bracket i.kind) (operandsOf m i)) := by
  have hformat := formatOf_operandsOf m i
  refine lineTail_operands (ne_unknown_of_hasOperands hi) (fun h => hi.1 ?_) fun h => hi.2 ?_
  · rw [← hformat, h]; rfl
  · rw [← hformat, h]; rfl

/-- What a word that a row with operands matches decodes to, and what executing it delivers. -/
theorem word_of_row {k : Kind} {w : Word} (h : w &&& tableMask k = tableMatch k) (s : State)
    (hk : HasOperands k := by decide) :
    decodeWord w = instrOf k w ∧
      Delivers s (instrOf k w) (portsOf s.params.immMode (instrOf k w))
        (operandTail (mnemonicName k) (operandString (bracket k) (operandsOf s.params.immMode (instrOf k w)))) := by
  refine ⟨decodeWord_of_row (ne_unknown_of_hasOperands hk) h, ?_⟩
  have hline := lineTail_of_hasOperands (i := instrOf k w) (by rwa [kind_instrOf]) s.params.immMode
  rw [kind_instrOf] at hline
  rw [← hline]
  simpa only [kind_instrOf] using exec_delivers (instrOf k w) s

/-! ## Immediate fields as the exhibit's numbers -/

theorem ofNat_exhibitImmS (w : Word) : BitVec.ofNat 12 (exhibitImmS w) = immSField w := by
  rw [exhibitImmS_eq, BitVec.ofNat_toNat, BitVec.setWidth_eq]

theorem ofNat_exhibitImmB (w : Word) : BitVec.ofNat 13 (exhibitImmB w) = immBField w := by
  rw [exhibitImmB_eq, BitVec.ofNat_toNat, BitVec.setWidth_eq]

theorem ofNat_exhibitImmJ (w : Word) : BitVec.ofNat 21 (exhibitImmJ w) = immJField w := by
  rw [exhibitImmJ_eq, BitVec.ofNat_toNat, BitVec.setWidth_eq]

theorem signExtend_bits_immI (w : Word) : signExtend (bits w 31 20) 11 = immI (immIField w) := by
  rw [bits_immI, immI]

theorem signExtend_exhibitImmS (w : Word) : signExtend (exhibitImmS w) 11 = immS (immSField w) := by
  rw [exhibitImmS_eq, immS]

/-- The bracket form, written out (R130). -/
theorem append_memOperand (t : Text) (imm : Int) (rs1 : RegIdx) :
    t ++ memOperand imm rs1 = t ++ decimal imm ++ ascii "(" ++ regName rs1 ++ ascii ")" := by
  simp only [memOperand, List.append_assoc]

/-! ## The families -/

/-- Settles O20: the row and the field `w[31:12]`, extended as the mode has it. -/
theorem upperImmediateWords : Obligations.UpperImmediateWords := by
  intro s w row hrow h
  simp only [List.mem_cons, List.not_mem_nil, or_false] at hrow
  dsimp only
  generalize hv : signExtend (bits w 31 12) _ = v
  obtain rfl : immU s.params.immMode (immUField w) = v := by
    rw [← hv, bits_immU]; cases s.params.immMode <;> rfl
  rcases hrow with rfl | rfl
  exacts [word_of_row (k := .lui) h s, word_of_row (k := .auipc) h s]

/-- Settles O21: the row and `immJ`, extended as the mode has it. -/
theorem jalWords : Obligations.JalWords := by
  intro s w h
  dsimp only
  rw [← exhibitImmJ, ofNat_exhibitImmJ]
  generalize hv : signExtend (exhibitImmJ w) _ = v
  obtain rfl : immJ s.params.immMode (immJField w) = v := by
    rw [← hv, exhibitImmJ_eq]; cases s.params.immMode <;> rfl
  exact word_of_row (k := .jal) h s

/-- Settles O22: the row fixes the opcode alone, so that funct3 is free. -/
theorem jalrWords : Obligations.JalrWords := by
  intro s w h
  dsimp only
  rw [signExtend_bits_immI]
  exact word_of_row (k := .jalr) h s

/-- Settles O23: the six rows and `immB`, extended as the mode has it. -/
theorem branchWords : Obligations.BranchWords := by
  intro s w row hrow h
  simp only [List.mem_cons, List.not_mem_nil, or_false] at hrow
  dsimp only
  rw [← exhibitImmB, ofNat_exhibitImmB]
  generalize hv : signExtend (exhibitImmB w) _ = v
  obtain rfl : immB s.params.immMode (immBField w) = v := by
    rw [← hv, exhibitImmB_eq]; cases s.params.immMode <;> rfl
  rcases hrow with rfl | rfl | rfl | rfl | rfl | rfl
  exacts [word_of_row (k := .beq) h s, word_of_row (k := .bne) h s, word_of_row (k := .blt) h s,
    word_of_row (k := .bge) h s, word_of_row (k := .bltu) h s, word_of_row (k := .bgeu) h s]

/-- Settles O24: the five rows, whose kinds have the bracket form. -/
theorem loadWords : Obligations.LoadWords := by
  intro s w row hrow h
  simp only [List.mem_cons, List.not_mem_nil, or_false] at hrow
  dsimp only
  rw [signExtend_bits_immI, ← append_memOperand]
  rcases hrow with rfl | rfl | rfl | rfl | rfl
  exacts [word_of_row (k := .lb) h s, word_of_row (k := .lh) h s, word_of_row (k := .lw) h s,
    word_of_row (k := .lbu) h s, word_of_row (k := .lhu) h s]

/-- Settles O25: the three rows; the effect is that of every instruction, so nothing is stored. -/
theorem storeWords : Obligations.StoreWords := by
  intro s w row hrow h
  simp only [List.mem_cons, List.not_mem_nil, or_false] at hrow
  dsimp only
  rw [← exhibitImmS, ofNat_exhibitImmS, signExtend_exhibitImmS, ← append_memOperand]
  rcases hrow with rfl | rfl | rfl
  exacts [word_of_row (k := .sb) h s, word_of_row (k := .sh) h s, word_of_row (k := .sw) h s]

/-- Settles O26: the five rows, which leave `w[31:25]` to the immediate. -/
theorem aluImmediateWords : Obligations.AluImmediateWords := by
  intro s w row hrow h
  simp only [List.mem_cons, List.not_mem_nil, or_false] at hrow
  dsimp only
  rw [signExtend_bits_immI]
  rcases hrow with rfl | rfl | rfl | rfl | rfl
  exacts [word_of_row (k := .addi) h s, word_of_row (k := .slti) h s, word_of_row (k := .xori) h s,
    word_of_row (k := .ori) h s, word_of_row (k := .andi) h s]

/-- Settles O27: the row, and the immediate as the mode reads it. -/
theorem sltiuWords : Obligations.SltiuWords := by
  intro s w h rd rs1 imm i
  have himm : imm = immISltiu s.params.immMode (immIField w) := by
    simp only [imm, bits_immI]
    cases s.params.immMode <;> rfl
  rw [himm]
  exact word_of_row (k := .sltiu) h s

/-- Settles O28: the three rows, which fix funct7 too. -/
theorem shiftImmediateWords : Obligations.ShiftImmediateWords := by
  intro s w row hrow h
  simp only [List.mem_cons, List.not_mem_nil, or_false] at hrow
  rcases hrow with rfl | rfl | rfl
  exacts [word_of_row (k := .slli) h s, word_of_row (k := .srli) h s, word_of_row (k := .srai) h s]

/-- Settles O29: the ten rows. -/
theorem registerRegisterWords : Obligations.RegisterRegisterWords := by
  intro s w row hrow h
  simp only [List.mem_cons, List.not_mem_nil, or_false] at hrow
  rcases hrow with rfl | rfl | rfl | rfl | rfl | rfl | rfl | rfl | rfl | rfl
  exacts [word_of_row (k := .add) h s, word_of_row (k := .sub) h s, word_of_row (k := .sll) h s,
    word_of_row (k := .slt) h s, word_of_row (k := .sltu) h s, word_of_row (k := .xor) h s, word_of_row (k := .srl) h s,
    word_of_row (k := .sra) h s, word_of_row (k := .or) h s, word_of_row (k := .and) h s]

/-- Settles O30: the eight rows; `0x02058533` is on the row of MUL. -/
theorem multiplyDivideWords : Obligations.MultiplyDivideWords := by
  intro s w row hrow h
  simp only [List.mem_cons, List.not_mem_nil, or_false] at hrow
  rcases hrow with rfl | rfl | rfl | rfl | rfl | rfl | rfl | rfl
  exacts [word_of_row (k := .mul) h s, word_of_row (k := .mulh) h s, word_of_row (k := .mulhsu) h s,
    word_of_row (k := .mulhu) h s, word_of_row (k := .div) h s, word_of_row (k := .divu) h s,
    word_of_row (k := .rem) h s, word_of_row (k := .remu) h s]

/-- Settles O31: the row of FENCE fixes `w[31:28]` and `w[19:0]` and nothing else. -/
theorem fenceWords : Obligations.FenceWords := by
  intro s w
  refine ⟨?_, fun h => word_of_row (k := .fence) h s⟩
  have hrow : classify w = .fence ↔ w &&& 0xF00FFFFF#32 = 0b0000#4 ++ 0#8 ++ 0x0000F#20 :=
    classify_eq_iff_row (by decide) w
  rw [hrow, and_fenceMask, bits_fm, bits_lo20]
  exact (fencePattern_iff w).symm

/-- An instruction without operands whose row fixes every bit has one word. -/
theorem noOperand_word {i : Instr} (hi : ∀ w, instrOf i.kind w = i) (hk : i.kind.FixesEveryBit) (s : State) :
    decodeWord (tableMatch i.kind) = i ∧ (∀ w, decodeWord w = i → w = tableMatch i.kind) ∧
      Delivers s i (portsOf s.params.immMode i) (lineTail i.kind (operandsOf s.params.immMode i)) :=
  ⟨(decodeWord_eq_iff_eq_tableMatch hi hk _).mpr rfl, fun w => (decodeWord_eq_iff_eq_tableMatch hi hk w).mp,
    exec_delivers i s⟩

/-- Settles O32: the row fixes every bit, so one word decodes to the instruction; its record has no operand string. -/
theorem noOperandWords : Obligations.NoOperandWords := by
  intro s row hrow
  simp only [List.mem_cons, List.not_mem_nil, or_false] at hrow
  rcases hrow with rfl | rfl | rfl
  exacts [noOperand_word (i := .fencei) (fun _ => rfl) rfl s, noOperand_word (i := .ecall) (fun _ => rfl) rfl s,
    noOperand_word (i := .ebreak) (fun _ => rfl) rfl s]

/-- Settles O33: the three rows, whatever the CSR number is. -/
theorem csrRegisterWords : Obligations.CsrRegisterWords := by
  intro s w row hrow h
  simp only [List.mem_cons, List.not_mem_nil, or_false] at hrow
  rcases hrow with rfl | rfl | rfl
  exacts [word_of_row (k := .csrrw) h s, word_of_row (k := .csrrs) h s, word_of_row (k := .csrrc) h s]

/-- Settles O34: the three rows; `w[19:15]` is rendered as a number. -/
theorem csrImmediateWords : Obligations.CsrImmediateWords := by
  intro s w row hrow h
  simp only [List.mem_cons, List.not_mem_nil, or_false] at hrow
  rcases hrow with rfl | rfl | rfl
  exacts [word_of_row (k := .csrrwi) h s, word_of_row (k := .csrrsi) h s, word_of_row (k := .csrrci) h s]

/-- Settles O35: UNKNOWN is delivered like every record, and the ports after the next instruction follow from that
instruction and the mode, which UNKNOWN leaves alone. -/
theorem unknownWordIsOrdinaryOutput : Obligations.UnknownWordIsOrdinaryOutput := by
  intro s w h
  refine ⟨(decodeWord_eq_unknown_iff w).mpr ((classify_eq_unknown_iff w).mpr h), exec_delivers .unknown s, ?_⟩
  obtain ⟨u, hexec, -, -, -, hparams, -⟩ := exec_delivers .unknown s
  refine ⟨u, hexec, fun i => ?_⟩
  obtain ⟨t, ht, hout⟩ := exec_out i s
  obtain ⟨t', ht', hout'⟩ := exec_out i u
  exact ⟨t, t', ht, ht', by rw [hout, hout', hparams]⟩

end Sys2Proof.Machine
end

section
/-! PROOFS of the immediates: the SignExtender as arithmetic (R73), the value on the port as a sum of bit ranges in both
modes (R75 to R81), and what the mode changes (R85). -/

namespace Sys2Proof.Machine

/-! ## The SignExtender -/

/-- The bits below `s`, less `2^s` where bit `s` is set. -/
theorem signExtend_eq (v s : Nat) :
    signExtend v s = ((v % 2 ^ s : Nat) : Int) - 2 ^ s * ((v / 2 ^ s % 2 : Nat) : Int) := by
  rw [signExtend, Nat.one_shiftLeft, Nat.and_two_pow, Nat.and_two_pow_sub_one_eq_mod, Nat.toNat_testBit]
  push_cast
  ring

theorem signExtend_mem_range (v s : Nat) : -(2 ^ s : Int) ≤ signExtend v s ∧ signExtend v s < 2 ^ s := by
  have hlow : v % 2 ^ s < 2 ^ s := Nat.mod_lt _ (Nat.two_pow_pos s)
  zify at hlow
  rw [signExtend_eq]
  obtain h | h := Nat.mod_two_eq_zero_or_one (v / 2 ^ s)
  · rw [h, Nat.cast_zero, mul_zero, sub_zero]
    exact ⟨by omega, by simpa using hlow⟩
  · rw [h, Nat.cast_one, mul_one]
    exact ⟨by omega, by push_cast; omega⟩

/-- A value of `s + 1` bits is its low `s` bits and its bit `s`. -/
theorem eq_low_add_top {v s : Nat} (h : v < 2 ^ (s + 1)) : v = v % 2 ^ s + 2 ^ s * (v / 2 ^ s % 2) := by
  rw [← Nat.mod_pow_succ, Nat.mod_eq_of_lt h]

theorem signExtend_of_bit_clear {v s : Nat} (h : v < 2 ^ (s + 1)) (hbit : v.testBit s = false) :
    signExtend v s = v := by
  have htop : v / 2 ^ s % 2 = 0 := by rw [← Nat.toNat_testBit, hbit]; rfl
  have hv := eq_low_add_top h
  rw [htop, Nat.mul_zero, Nat.add_zero] at hv
  rw [signExtend_eq, htop, ← hv]
  simp

theorem signExtend_of_bit_set {v s : Nat} (h : v < 2 ^ (s + 1)) (hbit : v.testBit s = true) :
    signExtend v s = (v : Int) - 2 ^ (s + 1) := by
  have htop : v / 2 ^ s % 2 = 1 := by rw [← Nat.toNat_testBit, hbit]; rfl
  have hv := eq_low_add_top h
  rw [htop, Nat.mul_one] at hv
  rw [signExtend_eq, htop]
  zify at hv
  rw [pow_succ]
  push_cast
  linarith

theorem signExtend_mod (v s : Nat) : signExtend (v % 2 ^ (s + 1)) s = signExtend v s := by
  have hlow : v % 2 ^ (s + 1) % 2 ^ s = v % 2 ^ s := Nat.mod_mod_of_dvd v (pow_dvd_pow 2 (Nat.le_succ s))
  have htop : v % 2 ^ (s + 1) / 2 ^ s % 2 = v / 2 ^ s % 2 := by
    rw [pow_succ, Nat.mod_mul_right_div_self, Nat.mod_mod]
  rw [signExtend_eq, signExtend_eq, hlow, htop]

/-- Settles O2: the formula is the definition; the rest reads it as the low bits and the weighed sign bit. -/
theorem signExtenderIdentity : Obligations.SignExtenderIdentity := by
  intro v s
  obtain ⟨hmin, hmax⟩ := signExtend_mem_range v s
  refine ⟨rfl, hmin, hmax, signExtend_of_bit_clear, fun h hbit => ?_, (signExtend_mod v s).symm⟩
  rw [signExtend_of_bit_set h hbit]
  zify at h
  refine ⟨by linarith, ?_⟩
  rw [Int.sub_emod_right, Int.emod_eq_of_lt (Int.natCast_nonneg v) h]

/-! ## An immediate on the 32-bit port -/

theorem toInt_port32 {v : Int} (hmin : -(2 ^ 31) ≤ v) (hmax : v < 2 ^ 31) : (port32 v).toInt = v :=
  BitVec.toInt_ofInt_eq_self (by decide) hmin hmax

theorem toInt_port32_signExtend (v : Nat) {s : Nat} (hs : s ≤ 31) :
    (port32 (signExtend v s)).toInt = signExtend v s := by
  have hpow : (2 : Int) ^ s ≤ 2 ^ 31 := pow_le_pow_right₀ (by decide) hs
  obtain ⟨hmin, hmax⟩ := signExtend_mem_range v s
  exact toInt_port32 (by omega) (by omega)

theorem port32_eq_iff {u v : Int} (hu : (port32 u).toInt = u) (hv : (port32 v).toInt = v) :
    port32 u = port32 v ↔ u = v := by
  rw [← BitVec.toInt_inj, hu, hv]

/-! ## Bit ranges as sums -/

/-- A range is its lower part and its upper part. -/
theorem bits_split (w : Word) {hi mid lo : Nat} (hlo : lo ≤ mid) (hhi : mid < hi) :
    bits w hi lo = bits w mid lo + 2 ^ (mid - lo + 1) * bits w hi (mid + 1) := by
  have hwidth : hi - lo + 1 = (mid - lo + 1) + (hi - (mid + 1) + 1) := by omega
  have hshift : lo + (mid - lo + 1) = mid + 1 := by omega
  simp only [bits]
  rw [hwidth, pow_add, Nat.mod_mul, Nat.div_div_eq_div_mul, ← pow_add, hshift]

theorem toNat_append_add {m n : Nat} (x : BitVec m) (y : BitVec n) : (x ++ y).toNat = x.toNat * 2 ^ n + y.toNat := by
  rw [BitVec.toNat_append, ← Nat.shiftLeft_add_eq_or_of_lt y.isLt, Nat.shiftLeft_eq]

theorem exhibitImmS_sum (w : Word) : exhibitImmS w = 32 * bits w 31 25 + bits w 11 7 := by
  rw [exhibitImmS_eq, immSField_eq]
  simp only [toNat_append_add]
  simp only [bits_eq, Nat.reduceSub, Nat.reduceAdd]
  omega

theorem exhibitImmB_sum (w : Word) :
    exhibitImmB w = 4096 * bits w 31 31 + 2048 * bits w 7 7 + 32 * bits w 30 25 + 2 * bits w 11 8 := by
  rw [exhibitImmB_eq, immBField_eq]
  simp only [toNat_append_add]
  simp only [bits_eq, Nat.reduceSub, Nat.reduceAdd, BitVec.toNat_ofNat]
  omega

theorem exhibitImmJ_sum (w : Word) :
    exhibitImmJ w = 1048576 * bits w 31 31 + 4096 * bits w 19 12 + 2048 * bits w 20 20 + 2 * bits w 30 21 := by
  rw [exhibitImmJ_eq, immJField_eq]
  simp only [toNat_append_add]
  simp only [bits_eq, Nat.reduceSub, Nat.reduceAdd, BitVec.toNat_ofNat]
  omega

/-! ## The immediates by format and extension point -/

/-- The I and the S immediate (R75, R77). -/
theorem signExtend_immI (w : Word) :
    signExtend (bits w 31 20) 11 = (bits w 30 20 : Int) - 2048 * (bits w 31 31 : Int) := by
  have hsum : bits w 31 20 = bits w 30 20 + 2048 * bits w 31 31 := bits_split w (by decide) (by decide)
  have hlow : bits w 30 20 < 2048 := bits_lt w 30 20
  have htop : bits w 31 31 < 2 := bits_lt w 31 31
  rw [signExtend_eq, hsum]
  omega

theorem signExtend_immS (w : Word) :
    signExtend (exhibitImmS w) 11 = (32 * bits w 30 25 + bits w 11 7 : Int) - 2048 * (bits w 31 31 : Int) := by
  have hsum : bits w 31 25 = bits w 30 25 + 64 * bits w 31 31 := bits_split w (by decide) (by decide)
  have hmid : bits w 30 25 < 64 := bits_lt w 30 25
  have hlow : bits w 11 7 < 32 := bits_lt w 11 7
  have htop : bits w 31 31 < 2 := bits_lt w 31 31
  rw [signExtend_eq, exhibitImmS_sum, hsum]
  omega

/-- The B immediate in COMPAT: the sign is `w[7]` (R78). -/
theorem signExtend_immB_compat (w : Word) :
    signExtend (exhibitImmB w) 11 = (32 * bits w 30 25 + 2 * bits w 11 8 : Int) - 2048 * (bits w 7 7 : Int) := by
  have hmid : bits w 30 25 < 64 := bits_lt w 30 25
  have hlow : bits w 11 8 < 16 := bits_lt w 11 8
  have hbit : bits w 7 7 < 2 := bits_lt w 7 7
  rw [signExtend_eq, exhibitImmB_sum]
  omega

/-- The B immediate in ARCH: the sign is `w[31]` (R78). -/
theorem signExtend_immB_arch (w : Word) :
    signExtend (exhibitImmB w) 12 =
      (2048 * bits w 7 7 + 32 * bits w 30 25 + 2 * bits w 11 8 : Int) - 4096 * (bits w 31 31 : Int) := by
  have hmid : bits w 30 25 < 64 := bits_lt w 30 25
  have hlow : bits w 11 8 < 16 := bits_lt w 11 8
  have hbit : bits w 7 7 < 2 := bits_lt w 7 7
  have htop : bits w 31 31 < 2 := bits_lt w 31 31
  rw [signExtend_eq, exhibitImmB_sum]
  omega

/-- The field of the U immediate, cut where the two modes have their signs (R79). -/
theorem bits_immU_sum (w : Word) :
    bits w 31 12 = bits w 22 12 + 2048 * bits w 23 23 + 4096 * bits w 30 24 + 524288 * bits w 31 31 := by
  have h22 : bits w 31 12 = bits w 22 12 + 2048 * bits w 31 23 := bits_split w (by decide) (by decide)
  have h23 : bits w 31 23 = bits w 23 23 + 2 * bits w 31 24 := bits_split w (by decide) (by decide)
  have h30 : bits w 31 24 = bits w 30 24 + 128 * bits w 31 31 := bits_split w (by decide) (by decide)
  omega

/-- The U immediate in COMPAT: the sign is `w[23]` (R79). -/
theorem signExtend_immU_compat (w : Word) :
    signExtend (bits w 31 12) 11 = (bits w 22 12 : Int) - 2048 * (bits w 23 23 : Int) := by
  have hlow : bits w 22 12 < 2048 := bits_lt w 22 12
  have hbit : bits w 23 23 < 2 := bits_lt w 23 23
  rw [signExtend_eq, bits_immU_sum]
  omega

/-- The U immediate in ARCH: the sign is `w[31]` (R79). -/
theorem signExtend_immU_arch (w : Word) :
    signExtend (bits w 31 12) 19 = (bits w 30 12 : Int) - 524288 * (bits w 31 31 : Int) := by
  have hsum : bits w 31 12 = bits w 30 12 + 524288 * bits w 31 31 := bits_split w (by decide) (by decide)
  have hlow : bits w 30 12 < 524288 := bits_lt w 30 12
  have htop : bits w 31 31 < 2 := bits_lt w 31 31
  rw [signExtend_eq, hsum]
  omega

/-- The J immediate in COMPAT: the sign is `w[20]` (R80). -/
theorem signExtend_immJ_compat (w : Word) :
    signExtend (exhibitImmJ w) 11 = (2 * bits w 30 21 : Int) - 2048 * (bits w 20 20 : Int) := by
  have hlow : bits w 30 21 < 1024 := bits_lt w 30 21
  have hbit : bits w 20 20 < 2 := bits_lt w 20 20
  rw [signExtend_eq, exhibitImmJ_sum]
  omega

/-- The J immediate in ARCH: the sign is `w[31]` (R80). -/
theorem signExtend_immJ_arch (w : Word) :
    signExtend (exhibitImmJ w) 20 =
      (4096 * bits w 19 12 + 2048 * bits w 20 20 + 2 * bits w 30 21 : Int) - 1048576 * (bits w 31 31 : Int) := by
  have hlow : bits w 30 21 < 1024 := bits_lt w 30 21
  have hbit : bits w 20 20 < 2 := bits_lt w 20 20
  have hmid : bits w 19 12 < 256 := bits_lt w 19 12
  have htop : bits w 31 31 < 2 := bits_lt w 31 31
  rw [signExtend_eq, exhibitImmJ_sum]
  omega

/-! ## The immediate port of a row's words -/

theorem portsOf_of_row {k : Kind} {w : Word} (hk : k ≠ .unknown) (h : w &&& tableMask k = tableMatch k)
    (m : ImmMode) : portsOf m (decodeWord w) = portsOf m (instrOf k w) := by
  rw [decodeWord_of_row hk h]

/-- A word executed in both modes drives the ports of its instruction in each. -/
theorem exec_bothModes (s : State) (w : Word) :
    ∃ c a, exec (decodeWord w) (s.inMode .compat) = .next c ∧ exec (decodeWord w) (s.inMode .arch) = .next a ∧
      c.out = portsOf .compat (decodeWord w) ∧ a.out = portsOf .arch (decodeWord w) := by
  obtain ⟨c, hc, hcout⟩ := exec_out (decodeWord w) (s.inMode .compat)
  obtain ⟨a, ha, haout⟩ := exec_out (decodeWord w) (s.inMode .arch)
  exact ⟨c, a, hc, ha, hcout, haout⟩

/-- A word whose immediate is one value extended from one bit in COMPAT and from another in ARCH, executed in both
modes: the ports hold the two integers, and are equal exactly if the integers are. -/
theorem exec_bothModes_imm_o (s : State) {w : Word} {v n m : Nat} (hn : n ≤ 31) (hm : m ≤ 31)
    (hcompat : (portsOf .compat (decodeWord w)).imm_o = port32 (signExtend v n))
    (harch : (portsOf .arch (decodeWord w)).imm_o = port32 (signExtend v m)) :
    ∃ c a, exec (decodeWord w) (s.inMode .compat) = .next c ∧ exec (decodeWord w) (s.inMode .arch) = .next a ∧
      c.out.imm_o = port32 (signExtend v n) ∧ c.out.imm_o.toInt = signExtend v n ∧
      a.out.imm_o = port32 (signExtend v m) ∧ a.out.imm_o.toInt = signExtend v m ∧
      (c.out.imm_o = a.out.imm_o ↔ signExtend v n = signExtend v m) := by
  obtain ⟨c, a, hc, ha, hcout, haout⟩ := exec_bothModes s w
  have hcval := toInt_port32_signExtend v hn
  have haval := toInt_port32_signExtend v hm
  refine ⟨c, a, hc, ha, ?_⟩
  rw [hcout, haout, hcompat, harch, hcval, haval]
  exact ⟨rfl, rfl, rfl, rfl, port32_eq_iff hcval haval⟩

theorem imm_o_signedI {k : Kind} {w : Word}
    (hk : k ∈ [Kind.jalr, .lb, .lh, .lw, .lbu, .lhu, .addi, .slti, .xori, .ori, .andi])
    (h : w &&& tableMask k = tableMatch k) (m : ImmMode) :
    (portsOf m (decodeWord w)).imm_o = port32 (signExtend (bits w 31 20) 11) := by
  rw [signExtend_bits_immI]
  simp only [List.mem_cons, List.not_mem_nil, or_false] at hk
  rw [portsOf_of_row (by rintro rfl; simp at hk) h]
  rcases hk with rfl | rfl | rfl | rfl | rfl | rfl | rfl | rfl | rfl | rfl | rfl <;> rfl

theorem imm_o_store {k : Kind} {w : Word} (hk : k ∈ [Kind.sb, .sh, .sw]) (h : w &&& tableMask k = tableMatch k)
    (m : ImmMode) : (portsOf m (decodeWord w)).imm_o = port32 (signExtend (exhibitImmS w) 11) := by
  rw [signExtend_exhibitImmS]
  simp only [List.mem_cons, List.not_mem_nil, or_false] at hk
  rw [portsOf_of_row (by rintro rfl; simp at hk) h]
  rcases hk with rfl | rfl | rfl <;> rfl

theorem imm_o_branch {k : Kind} {w : Word} (hk : k ∈ [Kind.beq, .bne, .blt, .bge, .bltu, .bgeu])
    (h : w &&& tableMask k = tableMatch k) (m : ImmMode) :
    (portsOf m (decodeWord w)).imm_o = port32 (immB m (immBField w)) := by
  simp only [List.mem_cons, List.not_mem_nil, or_false] at hk
  rw [portsOf_of_row (by rintro rfl; simp at hk) h]
  rcases hk with rfl | rfl | rfl | rfl | rfl | rfl <;> rfl

theorem imm_o_upper {k : Kind} {w : Word} (hk : k ∈ [Kind.lui, .auipc]) (h : w &&& tableMask k = tableMatch k)
    (m : ImmMode) : (portsOf m (decodeWord w)).imm_o = port32 (immU m (immUField w)) := by
  simp only [List.mem_cons, List.not_mem_nil, or_false] at hk
  rw [portsOf_of_row (by rintro rfl; simp at hk) h]
  rcases hk with rfl | rfl <;> rfl

/-- Settles O3: the port holds the sum of the low bits and the weighed sign bit. -/
theorem iAndSImmediatesAreSignedTwelveBits : Obligations.IAndSImmediatesAreSignedTwelveBits := by
  intro s w
  obtain ⟨t, hexec, hout⟩ := exec_out (decodeWord w) s
  refine ⟨fun k hk h => ⟨t, hexec, ?_⟩, fun k hk h => ⟨t, hexec, ?_⟩⟩
  · have hlow : bits w 30 20 < 2048 := bits_lt w 30 20
    have htop : bits w 31 31 < 2 := bits_lt w 31 31
    rw [hout, imm_o_signedI hk h, toInt_port32_signExtend _ (by decide), signExtend_immI]
    exact ⟨by rw [← signExtend_immI]; rfl, rfl, by omega, by omega⟩
  · have hlow : bits w 11 7 < 32 := bits_lt w 11 7
    have hmid : bits w 30 25 < 64 := bits_lt w 30 25
    have htop : bits w 31 31 < 2 := bits_lt w 31 31
    rw [hout, imm_o_store hk h, toInt_port32_signExtend _ (by decide), signExtend_immS]
    exact ⟨by rw [← signExtend_immS]; rfl, rfl, by omega, by omega⟩

/-- Settles O4: COMPAT drives the field, ARCH the field less 4096 where `w[31]` is set. -/
theorem sltiuImmediateByMode : Obligations.SltiuImmediateByMode := by
  intro s w h
  obtain ⟨c, a, hc, ha, hcout, haout⟩ := exec_bothModes s w
  refine ⟨c, a, hc, ha, ?_⟩
  have hcompat : c.out.imm_o = port32 (bits w 31 20) := by
    rw [hcout, portsOf_of_row (k := .sltiu) (by decide) h, bits_immI]; rfl
  have harch : a.out.imm_o = port32 (signExtend (bits w 31 20) 11) := by
    rw [haout, portsOf_of_row (k := .sltiu) (by decide) h, bits_immI]; rfl
  have hsum : bits w 31 20 = bits w 30 20 + 2048 * bits w 31 31 := bits_split w (by decide) (by decide)
  have hlow : bits w 30 20 < 2048 := bits_lt w 30 20
  have htop : bits w 31 31 < 2 := bits_lt w 31 31
  have hcval : (port32 (bits w 31 20)).toInt = bits w 31 20 := toInt_port32 (by omega) (by omega)
  have haval := toInt_port32_signExtend (bits w 31 20) (s := 11) (by decide)
  rw [hcompat, harch, ne_eq, port32_eq_iff hcval haval, hcval, haval, signExtend_immI]
  refine ⟨rfl, by omega, by rw [← signExtend_immI]; rfl, by omega, by omega, by omega, by omega⟩

/-- Settles O5: the two sums differ in what `w[31]` and `w[7]` weigh. -/
theorem branchImmediateByMode : Obligations.BranchImmediateByMode := by
  intro s w k hk h
  obtain ⟨c, a, hc, ha, hcport, hcval, haport, haval, heq⟩ :=
    exec_bothModes_imm_o s (v := exhibitImmB w) (n := 11) (m := 12) (by decide) (by decide)
      (by rw [imm_o_branch hk h, exhibitImmB_eq]; rfl) (by rw [imm_o_branch hk h, exhibitImmB_eq]; rfl)
  have hmid : bits w 30 25 < 64 := bits_lt w 30 25
  have hlow : bits w 11 8 < 16 := bits_lt w 11 8
  have hbit : bits w 7 7 < 2 := bits_lt w 7 7
  have htop : bits w 31 31 < 2 := bits_lt w 31 31
  rw [signExtend_immB_compat] at hcval heq
  rw [signExtend_immB_arch] at haval heq
  exact ⟨c, a, hc, ha, hcport, hcval, by omega, by omega, by omega, haport, haval, by omega, by omega, by omega,
    heq.trans (by omega)⟩

/-- Settles O6: the two values agree where `w[31:23]` repeats one sign. -/
theorem upperImmediateByMode : Obligations.UpperImmediateByMode := by
  intro s w k hk h
  obtain ⟨c, a, hc, ha, hcport, hcval, haport, haval, heq⟩ :=
    exec_bothModes_imm_o s (v := bits w 31 12) (n := 11) (m := 19) (by decide) (by decide)
      (by rw [imm_o_upper hk h, bits_immU]; rfl) (by rw [imm_o_upper hk h, bits_immU]; rfl)
  have hsigns : bits w 31 12 = bits w 22 12 + 2048 * bits w 31 23 := bits_split w (by decide) (by decide)
  have hfield : bits w 31 12 = bits w 30 12 + 524288 * bits w 31 31 := bits_split w (by decide) (by decide)
  have hsum := bits_immU_sum w
  have hlow : bits w 22 12 < 2048 := bits_lt w 22 12
  have hbit : bits w 23 23 < 2 := bits_lt w 23 23
  have hmid : bits w 30 24 < 128 := bits_lt w 30 24
  have htop : bits w 31 31 < 2 := bits_lt w 31 31
  rw [signExtend_immU_compat] at hcval heq
  rw [signExtend_immU_arch] at haval heq
  exact ⟨c, a, hc, ha, hcport, hcval, by omega, by omega, haport, haval, by omega, by omega,
    heq.trans (by omega)⟩

/-- Settles O7: the two values agree where `w[31]`, `w[19:12]` and `w[20]` repeat one sign. -/
theorem jumpImmediateByMode : Obligations.JumpImmediateByMode := by
  intro s w h
  have hrow := portsOf_of_row (k := .jal) (by decide) h
  obtain ⟨c, a, hc, ha, hcport, hcval, haport, haval, heq⟩ :=
    exec_bothModes_imm_o s (v := exhibitImmJ w) (n := 11) (m := 20) (by decide) (by decide)
      (by rw [hrow, exhibitImmJ_eq]; rfl) (by rw [hrow, exhibitImmJ_eq]; rfl)
  have hlow : bits w 30 21 < 1024 := bits_lt w 30 21
  have hbit : bits w 20 20 < 2 := bits_lt w 20 20
  have hmid : bits w 19 12 < 256 := bits_lt w 19 12
  have htop : bits w 31 31 < 2 := bits_lt w 31 31
  rw [signExtend_immJ_compat] at hcval heq
  rw [signExtend_immJ_arch] at haval heq
  exact ⟨c, a, hc, ha, hcport, hcval, by omega, by omega, by omega, haport, haval, by omega, by omega, by omega,
    heq.trans (by omega)⟩

/-- Settles O8: five bits never reach bit 11, and both modes drive the field. -/
theorem shiftAmountIsFiveBitField : Obligations.ShiftAmountIsFiveBitField := by
  intro s w k hk h
  have hfield : bits w 24 20 < 32 := bits_lt w 24 20
  refine ⟨by rw [signExtend_eq]; omega, ?_⟩
  obtain ⟨c, a, hc, ha, hcout, haout⟩ := exec_bothModes s w
  have hshamt (m : ImmMode) : (portsOf m (decodeWord w)).shamt_o.toNat = bits w 24 20 := by
    simp only [List.mem_cons, List.not_mem_nil, or_false] at hk
    rw [portsOf_of_row (by rintro rfl; simp at hk) h, bits_eq]
    rcases hk with rfl | rfl | rfl <;> rfl
  exact ⟨c, a, hc, ha, by rw [hcout, hshamt], by rw [haout, hshamt], by omega⟩

/-! ## Every immediate (R74) -/

theorem imm_o_outputs {ops : Operands} {v : Int} (k : Kind) (h : immediateOf ops = some v) :
    (outputs k ops).imm_o = port32 v := by
  cases ops <;> cases h <;> rfl

/-- The integers of R74. -/
def FitsImmediate (v : Int) : Prop :=
  -(2 ^ 20) ≤ v ∧ v < 2 ^ 20

theorem fitsImmediate_signExtend (v : Nat) {s : Nat} (hs : s ≤ 20) : FitsImmediate (signExtend v s) := by
  have hpow : (2 : Int) ^ s ≤ 2 ^ 20 := pow_le_pow_right₀ (by decide) hs
  obtain ⟨hmin, hmax⟩ := signExtend_mem_range v s
  exact ⟨by omega, by omega⟩

theorem fitsImmediate_immB (m : ImmMode) (imm : BitVec 13) : FitsImmediate (immB m imm) := by
  cases m <;> exact fitsImmediate_signExtend _ (by decide)

theorem fitsImmediate_immU (m : ImmMode) (imm : BitVec 20) : FitsImmediate (immU m imm) := by
  cases m <;> exact fitsImmediate_signExtend _ (by decide)

theorem fitsImmediate_immJ (m : ImmMode) (imm : BitVec 21) : FitsImmediate (immJ m imm) := by
  cases m <;> exact fitsImmediate_signExtend _ (by decide)

theorem fitsImmediate_immISltiu (m : ImmMode) (imm : BitVec 12) : FitsImmediate (immISltiu m imm) := by
  cases m with
  | compat =>
    have h : imm.toNat < 4096 := imm.isLt
    exact ⟨by simp only [immISltiu]; omega, by simp only [immISltiu]; omega⟩
  | arch => exact fitsImmediate_signExtend _ (by decide)

theorem fitsImmediate_operandsOf {m : ImmMode} {i : Instr} {v : Int} (h : immediateOf (operandsOf m i) = some v) :
    FitsImmediate v := by
  cases i with
  | lui | auipc => cases h; exact fitsImmediate_immU m _
  | jal => cases h; exact fitsImmediate_immJ m _
  | beq | bne | blt | bge | bltu | bgeu => cases h; exact fitsImmediate_immB m _
  | sltiu => cases h; exact fitsImmediate_immISltiu m _
  | jalr | lb | lh | lw | lbu | lhu | sb | sh | sw | addi | slti | xori | ori | andi =>
    cases h; exact fitsImmediate_signExtend _ (by decide)
  | _ => cases h

/-- Settles O9: the exhibit's record is the one delivered, and each of its immediates fits. -/
theorem everyImmediateFitsThePort : Obligations.EveryImmediateFitsThePort := by
  intro s w
  obtain ⟨t, hexec, hout⟩ := exec_out (decodeWord w) s
  refine ⟨t, hexec, fun v hv => ?_⟩
  rw [exhibit_eq_decodeWord] at hv
  obtain ⟨hmin, hmax⟩ := fitsImmediate_operandsOf hv
  refine ⟨hmin, hmax, ?_⟩
  rw [hout, portsOf, imm_o_outputs _ hv]
  exact toInt_port32 (by omega) (by omega)

/-! ## What the mode changes (R85) -/

/-- The kinds whose immediate the mode selects. -/
def modalKinds : List Kind :=
  [.sltiu, .beq, .bne, .blt, .bge, .bltu, .bgeu, .lui, .auipc, .jal]

theorem portsOf_without_imm (i : Instr) :
    { portsOf .compat i with imm_o := 0 } = { portsOf .arch i with imm_o := 0 } := by
  cases i <;> rfl

theorem portsOf_of_not_modal {i : Instr} (h : i.kind ∉ modalKinds) : portsOf .compat i = portsOf .arch i := by
  cases i with
  | sltiu | beq | bne | blt | bge | bltu | bgeu | lui | auipc | jal => exact absurd (by simp [modalKinds, Instr.kind]) h
  | _ => rfl

/-- Settles O10: but for the immediate no port depends on the mode, and no immediate but those of ten rows. -/
theorem modesDifferOnlyInFourImmediates : Obligations.ModesDifferOnlyInFourImmediates := by
  intro s w
  obtain ⟨c, a, hc, ha, hcout, haout⟩ := exec_bothModes s w
  refine ⟨c, a, hc, ha, ?_⟩
  rw [hcout, haout]
  refine ⟨portsOf_without_imm _, fun h => portsOf_of_not_modal fun hmem => ?_⟩
  rw [kind_decodeWord] at hmem
  have hk : classify w ≠ .unknown := fun hu => by simp [hu, modalKinds] at hmem
  exact h _ hmem (fitsWord_classify w hk)

end Sys2Proof.Machine
end

section
/-! PROOFS of the text: labels (R342), addresses and line heads (R340, R343, R344), decimal numbers (R128) and register
names (R86, R87). -/

namespace Sys2Proof.Machine

/-! ## The label (R342) -/

theorem labels_iff (y : SymbolEntry) (a : Word) : y.labels a = true ↔ y.value = a ∧ y.info.toNat % 16 = 2 := by
  simp only [SymbolEntry.labels, SymbolEntry.isFunction, Bool.and_eq_true, beq_iff_eq]

/-- The last symbol of a table decides first. -/
theorem label_concat (ys : List SymbolEntry) (y : SymbolEntry) (a : Word) :
    label (ys ++ [y]) a = if y.labels a then some y.name else label ys a := by
  simp only [label, List.foldl_append, List.foldl_cons, List.foldl_nil]

theorem label_eq_none_iff (ys : List SymbolEntry) (a : Word) :
    label ys a = none ↔ ∀ z ∈ ys, ¬z.labels a = true := by
  induction ys using List.reverseRecOn with
  | nil => simp [label]
  | append_singleton ys y ih =>
    rw [label_concat, List.forall_mem_append, List.forall_mem_singleton]
    by_cases hy : y.labels a = true
    · simp [hy]
    · simp only [hy, if_false, ih, not_false_eq_true, and_true, Bool.false_eq_true]

theorem label_append_of_no_match (ys : List SymbolEntry) {after : List SymbolEntry} {a : Word}
    (h : ∀ z ∈ after, ¬z.labels a = true) : label (ys ++ after) a = label ys a := by
  induction after using List.reverseRecOn with
  | nil => rw [List.append_nil]
  | append_singleton zs z ih =>
    rw [← List.append_assoc, label_concat, if_neg (h z (by simp))]
    exact ih fun x hx => h x (List.mem_append_left _ hx)

theorem label_eq_some_iff (ys : List SymbolEntry) (a : Word) (name : Text) :
    label ys a = some name ↔ ∃ before y after, ys = before ++ y :: after ∧ y.name = name ∧ y.labels a = true ∧
      ∀ z ∈ after, ¬z.labels a = true := by
  constructor
  · intro h
    induction ys using List.reverseRecOn with
    | nil => cases h
    | append_singleton ys y ih =>
      rw [label_concat] at h
      by_cases hy : y.labels a = true
      · rw [if_pos hy] at h
        exact ⟨ys, y, [], rfl, Option.some.inj h, hy, by simp⟩
      · rw [if_neg hy] at h
        obtain ⟨before, x, after, rfl, hname, hx, hafter⟩ := ih h
        refine ⟨before, x, after ++ [y], by simp, hname, hx, fun z hz => ?_⟩
        rcases List.mem_append.mp hz with hz | hz
        · exact hafter z hz
        · exact List.mem_singleton.mp hz ▸ hy
  · rintro ⟨before, y, after, rfl, rfl, hy, hafter⟩
    rw [List.append_cons, label_append_of_no_match _ hafter, label_concat, if_pos hy]

/-- Settles O51: the scan from the end finds the symbol. -/
theorem labelIsLastMatchingFunction : Obligations.LabelIsLastMatchingFunction := by
  intro symbols a
  simpa only [labels_iff, and_assoc] using And.intro (label_eq_some_iff symbols a) (label_eq_none_iff symbols a)

/-! ## The line head (R344) -/

theorem hexValue_hexDigit : ∀ (c : HexCase) (d : BitVec 4), hexValue c (hexDigit c d) = d.toNat := by
  intro c
  cases c <;> decide

theorem hexValue_lt_of_mem_hex8 {c : HexCase} {a : Word} {d : Byte} (h : d ∈ hex8 c a) : hexValue c d < 16 := by
  obtain ⟨k, -, rfl⟩ := List.mem_map.mp h
  rw [hexValue_hexDigit]
  exact BitVec.isLt _

/-- The lowest `n` hexadecimal digits of an address, the highest first. -/
def hexDigits (c : HexCase) (a : Word) (n : Nat) : Text :=
  (List.range n).reverse.map fun k => hexDigit c (a.extractLsb' (4 * k) 4)

theorem hexDigits_succ (c : HexCase) (a : Word) (n : Nat) :
    hexDigits c a (n + 1) = hexDigit c (a.extractLsb' (4 * n) 4) :: hexDigits c a n := by
  simp [hexDigits, List.range_succ]

theorem hexDigits_eight (c : HexCase) (a : Word) : hexDigits c a 8 = hex8 c a := rfl

/-- Read on from a number `r`, the lowest `n` digits of `a` add `a mod 16 ^ n` below it. -/
theorem foldl_hexDigits (c : HexCase) (a : Word) (n r : Nat) :
    (hexDigits c a n).foldl (fun r b => 16 * r + hexValue c b) r = 16 ^ n * r + a.toNat % 16 ^ n := by
  induction n generalizing r with
  | zero => simp [hexDigits, Nat.mod_one]
  | succ n ih =>
    have hdigit : (a.extractLsb' (4 * n) 4).toNat = a.toNat / 16 ^ n % 16 := by
      rw [BitVec.extractLsb'_toNat, Nat.shiftRight_eq_div_pow, pow_mul]
      rfl
    rw [hexDigits_succ, List.foldl_cons, ih, hexValue_hexDigit, hdigit, Nat.mod_pow_succ]
    ring

theorem readHex_hex8 (c : HexCase) (a : Word) : readHex c (hex8 c a) = a.toNat := by
  rw [readHex, ← hexDigits_eight, foldl_hexDigits, Nat.mul_zero, Nat.zero_add]
  exact Nat.mod_eq_of_lt a.isLt

theorem wordAddress_eq (base : Word) (index : Nat) :
    wordAddress base index = BitVec.ofNat 32 (base.toNat + 4 * index) := by
  rw [wordAddress, BitVec.ofNat_add, BitVec.ofNat_toNat, BitVec.setWidth_eq]

/-- Settles O52: the head is the digits of the line address and the label text. -/
theorem lineBeginsWithAddressAndLabel : Obligations.LineBeginsWithAddressAndLabel := by
  intro i s
  obtain ⟨t, hexec, -, hsink, -⟩ := exec_delivers i s
  refine ⟨t, hex8 s.params.hexCase (lineAddress s.params.lineAddr s.base s.index), _, hexec, hsink, ?_, rfl,
    fun d hd => hexValue_lt_of_mem_hex8 hd, ?_⟩
  · rw [lineHead, wordAddress_eq]
    cases label s.symbols (BitVec.ofNat 32 (s.base.toNat + 4 * s.index)) <;> rfl
  · rw [readHex_hex8]
    cases s.params.lineAddr with
    | absolute => rw [lineAddress, wordAddress_eq]; rfl
    | sectionOffset => rfl

/-! ## Decimal numbers (R128) -/

/-- The byte of a decimal digit. -/
def digitByte (d : Nat) : Byte :=
  BitVec.ofNat 8 (0x30 + d)

theorem decimalDigit_digitByte : ∀ d < 10, decimalDigit (digitByte d) = d := by
  decide

theorem digitByte_ne_zeroDigit : ∀ d < 10, d ≠ 0 → digitByte d ≠ 0x30 := by
  decide

theorem decimalNat_of_lt {n : Nat} (h : n < 10) : decimalNat n = [digitByte n] := by
  rw [decimalNat, Nat.toDigits_of_lt_base h, List.map_singleton, Nat.toNat_digitChar_of_lt_ten h, digitByte]

theorem decimalNat_of_le {n : Nat} (h : 10 ≤ n) : decimalNat n = decimalNat (n / 10) ++ [digitByte (n % 10)] := by
  rw [decimalNat, Nat.toDigits_of_base_le (by decide) h, List.map_append, List.map_singleton,
    Nat.toNat_digitChar_of_lt_ten (Nat.mod_lt n (by decide)), digitByte, decimalNat]

theorem readDecimal_concat (t : Text) (c : Byte) : readDecimal (t ++ [c]) = 10 * readDecimal t + decimalDigit c := by
  simp only [readDecimal, List.foldl_append, List.foldl_cons, List.foldl_nil]

theorem readDecimal_decimalNat (n : Nat) : readDecimal (decimalNat n) = n := by
  induction n using Nat.strongRecOn with
  | ind n ih =>
    by_cases h : n < 10
    · simp [decimalNat_of_lt h, readDecimal, decimalDigit_digitByte n h]
    · rw [decimalNat_of_le (Nat.le_of_not_lt h), readDecimal_concat, ih (n / 10) (by omega),
        decimalDigit_digitByte _ (Nat.mod_lt n (by decide))]
      omega

theorem decimalDigit_lt_of_mem_decimalNat {n : Nat} {c : Byte} (hc : c ∈ decimalNat n) : decimalDigit c < 10 := by
  induction n using Nat.strongRecOn with
  | ind n ih =>
    have hdigit (d : Nat) (hd : d < 10) : decimalDigit (digitByte d) < 10 := by rwa [decimalDigit_digitByte d hd]
    by_cases h : n < 10
    · rw [decimalNat_of_lt h, List.mem_singleton] at hc
      exact hc ▸ hdigit n h
    · rw [decimalNat_of_le (Nat.le_of_not_lt h), List.mem_append, List.mem_singleton] at hc
      rcases hc with hc | rfl
      · exact ih (n / 10) (by omega) hc
      · exact hdigit _ (Nat.mod_lt n (by decide))

theorem head?_decimalNat_ne_zero {n : Nat} (hn : n ≠ 0) : (decimalNat n).head? ≠ some 0x30 := by
  induction n using Nat.strongRecOn with
  | ind n ih =>
    by_cases h : n < 10
    · rw [decimalNat_of_lt h, List.head?_cons, ne_eq, Option.some.injEq]
      exact digitByte_ne_zeroDigit n h hn
    · rw [decimalNat_of_le (Nat.le_of_not_lt h), List.head?_append_of_ne_nil _ (decimalNat_ne_nil _)]
      exact ih (n / 10) (by omega) (by omega)

/-- Settles O53: the digits of `n` are those of `n / 10` and one more. -/
theorem decimalReadsBack : Obligations.DecimalReadsBack :=
  ⟨fun n => ⟨readDecimal_decimalNat n, fun _ hc => decimalDigit_lt_of_mem_decimalNat hc, decimalNat_ne_nil n,
    head?_decimalNat_ne_zero⟩, decimalNat_of_lt (by decide), fun _ => rfl⟩

/-! ## Register names -/

/-- Settles O54: the names and the port are checked index by index. -/
theorem registerNamesAndTheirPort : Obligations.RegisterNamesAndTheirPort := by
  refine ⟨by decide, ?_⟩
  decide

end Sys2Proof.Machine
end
